-- ==== Sys2Proof/Word.lean ====
section
/-! DEFINITION. The word types of the block (00_scope.md R8, 30_encoding.md R90, R108). -/

namespace Sys2Proof

/-- A command word (30_encoding.md R90). -/
abbrev Word := BitVec 32

/-- A configuration register's contents and `IMM16` (10_state.md R20, 30_encoding.md R90). -/
abbrev Half := BitVec 16

/-- A byte: a channel, an index, a byte of `BUF` or `OUT`. -/
abbrev Byte := BitVec 8

/-- A code held in the trie: 12 bits (10_state.md R41). -/
abbrev Code := BitVec 12

/-- An element of `TC` or `PAL`: three unsigned 8-bit channels (00_scope.md R9, 30_encoding.md R108).
Two are equal when all three components are. -/
structure Pixel where
  r : Byte
  g : Byte
  b : Byte
deriving DecidableEq, Repr

end Sys2Proof
end

