-- ==== Sys2Proof/Syntax.lean ====
section
/-! DEFINITION. The commands of the block: one constructor per row of spec/opcode_table.json (30_encoding.md R91). -/

namespace Sys2Proof

/-- The ten commands. Operands that come from configuration registers are no fields (30_encoding.md R91). -/
inductive Instr where
  /-- `NOP` (40_control_commands.md R121). -/
  | nop
  /-- `SET reg, imm`: the raw register index `RA` and `IMM16` (40_control_commands.md R122). -/
  | set (ra : Byte) (imm : Half)
  /-- `PBUILD` (41_palette_quantizer.md R133). -/
  | pbuild
  /-- `PMASK` (41_palette_quantizer.md R136). -/
  | pmask
  /-- `PINDEX` (41_palette_quantizer.md R138). -/
  | pindex
  /-- `QUANT` (41_palette_quantizer.md R139). -/
  | quant
  /-- `LZWBEGIN` (42_lzw_compressor.md R153). -/
  | lzwbegin
  /-- `LZWPIX v`: `IMM8` (42_lzw_compressor.md R154). -/
  | lzwpix (v : Byte)
  /-- `LZWEND` (42_lzw_compressor.md R157). -/
  | lzwend
  /-- `LZWENC` (42_lzw_compressor.md R158). -/
  | lzwenc
deriving DecidableEq, Repr

end Sys2Proof
end

