-- ==== Sys2Proof/WellFormed.lean ====
section
/-! DEFINITION. Which instructions a command word can carry: the one constraint of spec/opcode_table.json that the
types do not say already. -/

namespace Sys2Proof

/-- The index of a configuration register is at most 8 (10_state.md R21, 30_encoding.md R94). -/
def raLegal (ra : Byte) : Bool := ra.toNat ≤ 8

/-- A well-formed instruction: what some command word decodes to. -/
def Instr.wellFormed : Instr → Bool
  | .nop => true
  | .set ra _ => raLegal ra
  | .pbuild => true
  | .pmask => true
  | .pindex => true
  | .quant => true
  | .lzwbegin => true
  | .lzwpix _ => true
  | .lzwend => true
  | .lzwenc => true

end Sys2Proof
end

