-- ==== Sys2Proof/Decode.lean ====
section
/-! DEFINITION. Decoding of command words (30_encoding.md R90 to R94) and the encoder. -/

namespace Sys2Proof

/-- `OPC = w[31:24]` (30_encoding.md R90). -/
def opcField (w : Word) : Byte := w.extractLsb' 24 8

/-- `RA = w[23:16]` (30_encoding.md R90). -/
def raField (w : Word) : Byte := w.extractLsb' 16 8

/-- `IMM16 = w[15:0]` (30_encoding.md R90). -/
def immField (w : Word) : Half := w.extractLsb' 0 16

/-- `IMM8 = w[7:0]` (30_encoding.md R92). -/
def imm8Field (w : Word) : Byte := w.extractLsb' 0 8

/-- `w[15:8]`, which must be zero in `LZWPIX` (30_encoding.md R92). -/
def immHighField (w : Word) : Byte := w.extractLsb' 8 8

/-- The word with the given three fields (30_encoding.md R90). -/
def wordOf (opc ra : Byte) (imm : Half) : Word := opc ++ ra ++ imm

/-- Why a word is no command: the fault its decoding raises (30_encoding.md R93). -/
inductive DecodeError where
  /-- `E_ILLCMD`: reserved opcode, or a non-zero field the command does not use. -/
  | illCmd
  /-- `E_ILLREG`: `SET` with `RA > 8`. -/
  | illReg
deriving DecidableEq, Repr

/-- The opcodes of 30_encoding.md R91. -/
def knownOpcodes : List Byte :=
  [0x00#8, 0x01#8, 0x10#8, 0x11#8, 0x12#8, 0x13#8, 0x20#8, 0x21#8, 0x22#8, 0x23#8]

/-- The command of an opcode that has no operand field (30_encoding.md R91). -/
def plainCommand (opc : Byte) : Except DecodeError Instr :=
  if opc = 0x00#8 then .ok .nop
  else if opc = 0x10#8 then .ok .pbuild
  else if opc = 0x11#8 then .ok .pmask
  else if opc = 0x12#8 then .ok .pindex
  else if opc = 0x13#8 then .ok .quant
  else if opc = 0x20#8 then .ok .lzwbegin
  else if opc = 0x22#8 then .ok .lzwend
  else if opc = 0x23#8 then .ok .lzwenc
  else .error .illCmd

/-- Decoding of a command word, its checks in the order of 30_encoding.md R93. -/
def decode (w : Word) : Except DecodeError Instr :=
  if opcField w ∉ knownOpcodes then .error .illCmd
  else if opcField w = 0x01#8 then
    if raLegal (raField w) then .ok (.set (raField w) (immField w)) else .error .illReg
  else if raField w ≠ 0#8 then .error .illCmd
  else if opcField w = 0x21#8 then
    if immHighField w ≠ 0#8 then .error .illCmd else .ok (.lzwpix (imm8Field w))
  else if immField w ≠ 0#16 then .error .illCmd
  else plainCommand (opcField w)

/-- The command word of an instruction (30_encoding.md R90, R91, R92). -/
def encode : Instr → Word
  | .nop => wordOf 0x00#8 0#8 0#16
  | .set ra imm => wordOf 0x01#8 ra imm
  | .pbuild => wordOf 0x10#8 0#8 0#16
  | .pmask => wordOf 0x11#8 0#8 0#16
  | .pindex => wordOf 0x12#8 0#8 0#16
  | .quant => wordOf 0x13#8 0#8 0#16
  | .lzwbegin => wordOf 0x20#8 0#8 0#16
  | .lzwpix v => wordOf 0x21#8 0#8 (0#8 ++ v)
  | .lzwend => wordOf 0x22#8 0#8 0#16
  | .lzwenc => wordOf 0x23#8 0#8 0#16

/-- The word of an opcode-table row given by its low `nbits` bits, the bits above them zero: bit 0 is the least
significant bit of the one 32-bit word every command has (30_encoding.md R90). -/
def tableWord (nbits w : Nat) : Word := BitVec.ofNat 32 (w % 2 ^ nbits)

/-- The instruction the decoder reads from the bits of an opcode-table row. -/
def decodeTableWord (nbits w : Nat) : Option Instr :=
  match decode (tableWord nbits w) with
  | .ok i => some i
  | .error _ => none

end Sys2Proof
end

