-- ==== Sys2Proof/Config.lean ====
section
/-! DEFINITION. What an implementation fixes (00_scope.md R7) and the free values of the model. -/

namespace Sys2Proof

/-- The parameters the spec leaves open and a model takes as arguments (00_scope.md R7).
They are fixed for the life of an instance (10_state.md R52); the model carries them in its state, where
no step and no host move changes them (log 1). -/
structure Params where
  /-- `FRAME_CAP`: elements in each of `TC` and `IDX`. -/
  frameCap : Nat
  /-- `LEADING_CLEAR`: whether `LZWBEGIN` emits a clear code first. -/
  leadingClear : Bool
deriving DecidableEq, Repr

/-- The defaults of 00_scope.md R7. -/
def Params.default : Params := { frameCap := 65536, leadingClear := true }

/-- FREE VALUE (log 3, DESIGN CHOICE): the contents of `TRIE` after an `LZWEND`, which the spec calls
unspecified (42_lzw_compressor.md R157). The argument is the number of free values taken before. -/
opaque Config.freeTrie : Nat → List (Nat × Option Code)

end Sys2Proof
end

