-- ==== Sys2Proof/Machine/State.lean ====
section
/-! DEFINITION. The state of the block (10_state.md R20 to R51), its value after reset, and the reasons a step can stop. -/

namespace Sys2Proof.Machine

/-- A memory space (20_memory.md R60): its elements by address, addresses strictly rising, no entry equal to what an
unlisted address reads as. `Memory Byte` is a list of `Host.Cell`; the elements of the other spaces are records or
trie entries, for which the spec defines no packed form (30_encoding.md R108; log 11). -/
abbrev Memory (α : Type) := List (Nat × α)

/-- The nine configuration registers by name (10_state.md R21). -/
inductive CfgReg where
  | frameW | frameH | regX | regY | regW | regH | depth | maxsize | maskStep
deriving DecidableEq, Repr

/-- The contents of the nine configuration registers, 16 bits each (10_state.md R20, R21). -/
structure CfgRegs where
  /-- `FRAME_W`, index 0x00. -/
  frameW : Half
  /-- `FRAME_H`, index 0x01. -/
  frameH : Half
  /-- `REG_X`, index 0x02. -/
  regX : Half
  /-- `REG_Y`, index 0x03. -/
  regY : Half
  /-- `REG_W`, index 0x04. -/
  regW : Half
  /-- `REG_H`, index 0x05. -/
  regH : Half
  /-- `DEPTH`, index 0x06. -/
  depth : Half
  /-- `MAXSIZE`, index 0x07. -/
  maxsize : Half
  /-- `MASK_STEP`, index 0x08. -/
  maskStep : Half
deriving DecidableEq, Repr

/-- The five memory spaces (20_memory.md R60). -/
inductive Space where
  | tc | pal | idx | trie | buf
deriving DecidableEq, Repr

/-- The block's own faults (60_exceptions.md R182). Taking one is a next state, `State.takeFault`. -/
inductive ErrCode where
  | illCmd | illReg | cfg | region | state | pixRange | empty | noMatch | maskLim
deriving DecidableEq, Repr

/-- Where the model stops because the spec gives no behaviour. Neither is raised from a state that satisfies the
invariant of Safety.lean, so neither is ever raised in a run. -/
inductive Fault where
  /-- An access to an address its memory space does not have (20_memory.md R60, R65). Raised by `PushByte` with
  `BUFCNT = 255` and by `PINDEX` with `PAL_SIZE > 256`, and by the host's element writes. Safe: the model stops (log 6). -/
  | outsideSpace (space : Space) (addr : Nat)
  /-- `Emit` called outside its precondition `1 <= wd <= 12`, `c < 2^wd` (43_code_packer.md R172). Raised by `Emit`.
  Safe: the model stops (log 7). -/
  | codeTooWide (code width : Nat)
deriving DecidableEq, Repr

/-- Moves the model does not make. -/
inductive Refusal where
  /-- An instruction without a meaning. Raised by no arm of `exec`. Safe. -/
  | notModelled (mnemonic : String)
  /-- The host touches the block while it is not quiescent (70_reset_and_hazards.md R208). Raised by the host's element
  writes, by no command. Safe: the spec gives the host no such move (log 10). -/
  | hostNotQuiescent
deriving DecidableEq, Repr

/-- The whole state of the block. -/
structure State where
  /-- The parameters `FRAME_CAP` and `LEADING_CLEAR` (00_scope.md R7; log 1). Never written. -/
  params : Params
  /-- The configuration registers (10_state.md R20). -/
  regs : CfgRegs
  /-- `PC`: commands completed since reset (10_state.md R27). -/
  pc : BitVec 32
  /-- `STATUS.FAULT` (10_state.md R31). -/
  fault : Bool
  /-- `STATUS.OVF` (10_state.md R32). -/
  ovf : Bool
  /-- `STATUS.ACTIVE` (10_state.md R33). -/
  active : Bool
  /-- `ERR` (10_state.md R34). -/
  err : BitVec 8
  /-- `ERRINFO` (10_state.md R35). -/
  errInfo : BitVec 32
  /-- `PAL_SIZE` (10_state.md R36). -/
  palSize : BitVec 9
  /-- `LZW_D` (10_state.md R37). -/
  lzwD : BitVec 4
  /-- `CODE_WIDTH` (10_state.md R38). -/
  codeWidth : BitVec 4
  /-- `NEXT_CODE` (10_state.md R39). -/
  nextCode : BitVec 13
  /-- `CUR` (10_state.md R40): bit 12 set means the root. -/
  cur : BitVec 13
  /-- `TRIE` (10_state.md R41): the entry of node `c` and pixel `v` stands at address `256 c + v`; `none` is `NONE`. -/
  trie : Memory (Option Code)
  /-- `NBITS` (10_state.md R42). -/
  nbits : BitVec 3
  /-- `PARTIAL` (10_state.md R43). -/
  partialByte : BitVec 8
  /-- `BUFCNT` (10_state.md R44). -/
  bufCnt : BitVec 8
  /-- `BUF` (10_state.md R45). -/
  buf : Memory Byte
  /-- `CMDQ` (10_state.md R47), the head first. -/
  cmdq : List Word
  /-- `OUT` (10_state.md R48), oldest byte first. -/
  out : List Byte
  /-- `TC` (10_state.md R49). -/
  tc : Memory Pixel
  /-- `PAL` (10_state.md R49). -/
  pal : Memory Pixel
  /-- `IDX` (10_state.md R49). -/
  idx : Memory Byte
  /-- THE MODEL'S OWN: how many free values have been taken (log 3). -/
  freeCtr : Nat
deriving DecidableEq, Repr

/-- The configuration registers after reset (10_state.md R51). -/
def CfgRegs.reset : CfgRegs :=
  { frameW := 0#16, frameH := 0#16, regX := 0#16, regY := 0#16, regW := 0#16, regH := 0#16
    depth := 0#16, maxsize := 0#16, maskStep := 0#16 }

/-- The contents of the five memories, which the spec leaves unspecified after reset (10_state.md R51, R200). -/
structure Contents where
  tc : Memory Pixel
  pal : Memory Pixel
  idx : Memory Byte
  trie : Memory (Option Code)
  buf : Memory Byte
deriving DecidableEq, Repr

/-- Memories with nothing listed (log 2). -/
def Contents.blank : Contents := { tc := [], pal := [], idx := [], trie := [], buf := [] }

/-- The state after reset of an instance with parameters `p` whose memories happen to hold `m`: every register, the
queue and the sink as 10_state.md R51 says. 20_memory.md R75 asks for the memories' initial contents to be part of the
launch state. -/
def State.launch (p : Params) (m : Contents) (freeCtr : Nat) : State :=
  { params := p, regs := CfgRegs.reset, pc := 0#32, fault := false, ovf := false, active := false
    err := 0#8, errInfo := 0#32, palSize := 0#9, lzwD := 0#4, codeWidth := 0#4, nextCode := 0#13
    cur := 0x1000#13, trie := m.trie, nbits := 0#3, partialByte := 0#8, bufCnt := 0#8, buf := m.buf
    cmdq := [], out := [], tc := m.tc, pal := m.pal, idx := m.idx, freeCtr := freeCtr }

/-- The machine right after reset (10_state.md R51), with the default parameters (00_scope.md R7) and nothing listed
in any memory (log 2). -/
def State.reset : State := State.launch Params.default Contents.blank 0

end Sys2Proof.Machine
end

