-- ==== Sys2Proof/Machine/Memory.lean ====
section
/-! DEFINITION. Reading and writing one element of a memory space (00_scope.md R9 `MemRead`, `MemWrite`; 20_memory.md
R64, R70), generic in the element, and the canonical form of a memory. `d` is what an unlisted address reads as. -/

namespace Sys2Proof.Machine

/-- The element at address `a`: the latest written, or `d` where nothing is listed. -/
def Memory.read {α : Type} (d : α) : Memory α → Nat → α
  | [], _ => d
  | (k, x) :: m, a => if k = a then x else Memory.read d m a

/-- Takes address `a` off the list. -/
def Memory.erase {α : Type} (m : Memory α) (a : Nat) : Memory α :=
  m.filter fun c => decide (c.1 ≠ a)

/-- Lists `v` at address `a`, in its place in the rising order. -/
def Memory.insert {α : Type} : Memory α → Nat → α → Memory α
  | [], a, v => [(a, v)]
  | (k, x) :: m, a, v =>
    if a < k then (a, v) :: (k, x) :: m
    else if a = k then (a, v) :: m
    else (k, x) :: Memory.insert m a v

/-- One element written; a value an unlisted address reads as anyway is not listed. -/
def Memory.write {α : Type} [DecidableEq α] (d : α) (m : Memory α) (a : Nat) (v : α) : Memory α :=
  if v = d then Memory.erase m a else Memory.insert m a v

/-- The addresses strictly rise. -/
def Memory.rising {α : Type} (m : Memory α) : Bool :=
  decide (m.Pairwise fun c c' => c.1 < c'.1)

/-- The canonical form: addresses strictly rising, no entry equal to what an unlisted address reads as. -/
def Memory.wf {α : Type} [DecidableEq α] (d : α) (m : Memory α) : Bool :=
  Memory.rising m && m.all fun c => decide (c.2 ≠ d)

/-- Every listed address lies below `size`. -/
def Memory.within {α : Type} (size : Nat) (m : Memory α) : Bool :=
  m.all fun c => decide (c.1 < size)

/-- The canonical memory of a list of writes, those outside the space left out. -/
def Memory.ofWrites {α : Type} [DecidableEq α] (d : α) (size : Nat) (ws : List (Nat × α)) : Memory α :=
  ws.foldl (fun m c => if c.1 < size then Memory.write d m c.1 c.2 else m) []

/-- What an element of `TC` or `PAL` nobody has written reads as (log 2, DESIGN CHOICE). -/
def unwrittenPixel : Pixel := { r := 0#8, g := 0#8, b := 0#8 }

/-- What an element of `IDX` or `BUF` nobody has written reads as (log 2, DESIGN CHOICE). -/
def unwrittenByte : Byte := 0#8

/-- What an entry of `TRIE` nobody has written reads as: `NONE` (10_state.md R41; log 2). -/
def trieNone : Option Code := none

/-- Elements of `PAL` (20_memory.md R60, 00_scope.md R6 `PAL_MAX`). -/
def palEntries : Nat := 256

/-- Elements of `BUF` (20_memory.md R60, 00_scope.md R6 `SUBBLOCK_MAX`). -/
def bufEntries : Nat := 255

/-- Entries of `TRIE`: 4096 rows of 256 (20_memory.md R60). -/
def trieEntries : Nat := 4096 * 256

/-- The address of the trie entry of node `c` and pixel `v` (10_state.md R41). -/
def trieAddr (c : Nat) (v : Byte) : Nat := 256 * c + v.toNat

/-- The 13-bit form of a trie entry: bit 12 valid, bits 11 to 0 the child code (10_state.md R41). -/
def trieEntryBits : Option Code → BitVec 13
  | none => 0#13
  | some c => 1#1 ++ c

/-- `MemRead(TC, a)`. -/
def State.readTc (s : State) (a : Nat) : Pixel := Memory.read unwrittenPixel s.tc a

/-- `MemWrite(TC, a, p)`. -/
def State.writeTc (s : State) (a : Nat) (p : Pixel) : State :=
  { s with tc := Memory.write unwrittenPixel s.tc a p }

/-- `MemRead(PAL, a)`. -/
def State.readPal (s : State) (a : Nat) : Pixel := Memory.read unwrittenPixel s.pal a

/-- `MemWrite(PAL, a, p)`. -/
def State.writePal (s : State) (a : Nat) (p : Pixel) : State :=
  { s with pal := Memory.write unwrittenPixel s.pal a p }

/-- `MemRead(IDX, a)`. -/
def State.readIdx (s : State) (a : Nat) : Byte := Memory.read unwrittenByte s.idx a

/-- `MemWrite(IDX, a, b)`. -/
def State.writeIdx (s : State) (a : Nat) (b : Byte) : State :=
  { s with idx := Memory.write unwrittenByte s.idx a b }

/-- `MemRead(TRIE, (c, v))`. -/
def State.readTrie (s : State) (c : Nat) (v : Byte) : Option Code := Memory.read trieNone s.trie (trieAddr c v)

/-- `MemWrite(TRIE, (c, v), e)`. -/
def State.writeTrie (s : State) (c : Nat) (v : Byte) (e : Option Code) : State :=
  { s with trie := Memory.write trieNone s.trie (trieAddr c v) e }

/-- `MemRead(BUF, a)`. -/
def State.readBuf (s : State) (a : Nat) : Byte := Memory.read unwrittenByte s.buf a

/-- `MemWrite(BUF, a, b)`. -/
def State.writeBuf (s : State) (a : Nat) (b : Byte) : State :=
  { s with buf := Memory.write unwrittenByte s.buf a b }

end Sys2Proof.Machine
end

