-- ==== Sys2Proof/Machine/Ops.lean ====
section
/-! DEFINITION. How a command ends, the sequencing of its steps, taking a fault and the reset that is the only way out of
one (60_exceptions.md R184, R185; 70_reset_and_hazards.md R200), and the append to the sink. -/

namespace Sys2Proof.Machine

/-- How a command's pseudocode stands (00_scope.md R9, 60_exceptions.md R186). -/
inductive Done where
  /-- Nothing raised so far. -/
  | ok (s : State)
  /-- `raise e(info)` reached in state `s`: nothing after it is performed. -/
  | raised (e : ErrCode) (info : Word) (s : State)
  /-- The spec gives no behaviour: the model stops. -/
  | stopped (r : Fault)
deriving DecidableEq, Repr

/-- The next part of the pseudocode, run unless something was raised. -/
def Done.bind (x : Done) (f : State → Done) : Done :=
  match x with
  | .ok s => f s
  | .raised e info s => .raised e info s
  | .stopped r => .stopped r

/-- `for k in a .. a + n - 1: body k` (00_scope.md R9). -/
def forFrom : Nat → Nat → (Nat → State → Done) → State → Done
  | 0, _, _, s => .ok s
  | n + 1, a, body, s => (body a s).bind (forFrom n (a + 1) body)

/-- The fault codes of 60_exceptions.md R182. -/
def ErrCode.code : ErrCode → BitVec 8
  | .illCmd => 0x01#8
  | .illReg => 0x02#8
  | .cfg => 0x03#8
  | .region => 0x04#8
  | .state => 0x05#8
  | .pixRange => 0x06#8
  | .empty => 0x07#8
  | .noMatch => 0x08#8
  | .maskLim => 0x09#8

/-- TAKING A FAULT (60_exceptions.md R184): `STATUS.FAULT`, `ERR`, `ERRINFO` are written, `PC` and all else stay. -/
def State.takeFault (s : State) (e : ErrCode) (info : Word) : State :=
  { s with fault := true, err := e.code, errInfo := info }

/-- THE ONLY WAY OUT OF A FAULT (60_exceptions.md R185): the `RESET` input puts registers, queue and sink into the state
of 10_state.md R51; the memories' contents are unspecified, hence an argument (70_reset_and_hazards.md R200; log 8). -/
def State.takeReset (s : State) (m : Contents) : State :=
  State.launch s.params
    { tc := Memory.ofWrites unwrittenPixel s.params.frameCap m.tc
      pal := Memory.ofWrites unwrittenPixel palEntries m.pal
      idx := Memory.ofWrites unwrittenByte s.params.frameCap m.idx
      trie := Memory.ofWrites trieNone trieEntries m.trie
      buf := Memory.ofWrites unwrittenByte bufEntries m.buf }
    s.freeCtr

/-- The end of a command (40_control_commands.md R120): `PC` advances modulo `2^32` if nothing was raised (10_state.md
R27), otherwise the fault is taken. -/
def finish : Done → Host.Outcome State Fault Refusal
  | .ok s => .next { s with pc := s.pc + 1#32 }
  | .raised e info s => .next (s.takeFault e info)
  | .stopped r => .fault r

/-- The fault a word that is no command raises (30_encoding.md R93). -/
def decodeErrCode : DecodeError → ErrCode
  | .illCmd => .illCmd
  | .illReg => .illReg

/-- The block is quiescent (10_state.md R29); between steps no command is executing. -/
def State.quiescent (s : State) : Bool := s.fault || s.cmdq.isEmpty

/-- The word the sequencer takes next and the state with it taken from the head of `CMDQ` (10_state.md R28); none when the
block is quiescent (R29, R185; log 4). -/
def State.fetch (s : State) : Option (Word × State) :=
  if s.fault then none
  else match s.cmdq with
    | [] => none
    | w :: rest => some (w, { s with cmdq := rest })

/-- `Out(b)` for each byte of a list in turn (00_scope.md R9, 10_state.md R48). -/
def State.outBytes (s : State) (bs : List Byte) : State := { s with out := s.out ++ bs }

end Sys2Proof.Machine
end

