-- ==== Sys2Proof/Machine/Operands.lean ====
section
/-! DEFINITION. The operand forms: configuration registers by index (10_state.md R21), what the commands compute from them
(frame size, region, the codes of a depth), and the checks they make (41_palette_quantizer.md R131, R132; 42_lzw_compressor.md
R153, R158). -/

namespace Sys2Proof.Machine

/-- The register an index names (10_state.md R21). -/
def cfgRegOf (ra : Byte) : Option CfgReg :=
  if ra = 0x00#8 then some .frameW
  else if ra = 0x01#8 then some .frameH
  else if ra = 0x02#8 then some .regX
  else if ra = 0x03#8 then some .regY
  else if ra = 0x04#8 then some .regW
  else if ra = 0x05#8 then some .regH
  else if ra = 0x06#8 then some .depth
  else if ra = 0x07#8 then some .maxsize
  else if ra = 0x08#8 then some .maskStep
  else none

/-- `x[NAME]` (00_scope.md R9). -/
def CfgRegs.get (x : CfgRegs) : CfgReg → Half
  | .frameW => x.frameW
  | .frameH => x.frameH
  | .regX => x.regX
  | .regY => x.regY
  | .regW => x.regW
  | .regH => x.regH
  | .depth => x.depth
  | .maxsize => x.maxsize
  | .maskStep => x.maskStep

/-- `x[NAME] <- v` (00_scope.md R9). -/
def CfgRegs.put (x : CfgRegs) (r : CfgReg) (v : Half) : CfgRegs :=
  match r with
  | .frameW => { x with frameW := v }
  | .frameH => { x with frameH := v }
  | .regX => { x with regX := v }
  | .regY => { x with regY := v }
  | .regW => { x with regW := v }
  | .regH => { x with regH := v }
  | .depth => { x with depth := v }
  | .maxsize => { x with maxsize := v }
  | .maskStep => { x with maskStep := v }

/-- `x[NAME] <- v` in the whole state. -/
def State.setCfg (s : State) (r : CfgReg) (v : Half) : State := { s with regs := s.regs.put r v }

/-- `n = x[FRAME_W] * x[FRAME_H]`, without wrap (41_palette_quantizer.md R130, 00_scope.md R10). -/
def State.frameArea (s : State) : Nat := s.regs.frameW.toNat * s.regs.frameH.toNat

/-- The condition of `FrameCheck` (41_palette_quantizer.md R131). -/
def State.frameOk (s : State) : Bool :=
  s.regs.frameW ≠ 0#16 && s.regs.frameH ≠ 0#16 && decide (s.frameArea ≤ s.params.frameCap)

/-- `FrameCheck(w)` (41_palette_quantizer.md R131). -/
def frameCheck (w : Word) (s : State) : Done := if s.frameOk then .ok s else .raised .cfg w s

/-- The legal values of `MAXSIZE` (00_scope.md R6). -/
def legalMaxsizes : List Nat := [2, 4, 8, 16, 32, 64, 128, 256]

/-- The condition of `MaxsizeCheck` (41_palette_quantizer.md R132). -/
def State.maxsizeOk (s : State) : Bool := legalMaxsizes.contains s.regs.maxsize.toNat

/-- `MaxsizeCheck(w)` (41_palette_quantizer.md R132). -/
def maxsizeCheck (w : Word) (s : State) : Done := if s.maxsizeOk then .ok s else .raised .cfg w s

/-- `x[DEPTH]` is in 1 .. 8 (42_lzw_compressor.md R153). -/
def State.depthOk (s : State) : Bool := decide (1 ≤ s.regs.depth.toNat) && decide (s.regs.depth.toNat ≤ 8)

/-- The depth check of `LZWBEGIN` and `LZWENC` (42_lzw_compressor.md R153, R158). -/
def depthCheck (w : Word) (s : State) : Done := if s.depthOk then .ok s else .raised .cfg w s

/-- No frame is open: the first check of `LZWBEGIN` and `LZWENC` (42_lzw_compressor.md R153, R158). -/
def closedCheck (w : Word) (s : State) : Done := if s.active then .raised .state w s else .ok s

/-- A frame is open: the first check of `LZWPIX` and `LZWEND` (42_lzw_compressor.md R154, R157). -/
def openCheck (w : Word) (s : State) : Done := if s.active then .ok s else .raised .state w s

/-- The region lies inside the frame and is not empty, its sums without wrap (42_lzw_compressor.md R158). -/
def State.regionOk (s : State) : Bool :=
  s.regs.regW ≠ 0#16 && s.regs.regH ≠ 0#16
    && decide (s.regs.regX.toNat + s.regs.regW.toNat ≤ s.regs.frameW.toNat)
    && decide (s.regs.regY.toNat + s.regs.regH.toNat ≤ s.regs.frameH.toNat)

/-- The region check of `LZWENC` (42_lzw_compressor.md R158). -/
def regionCheck (w : Word) (s : State) : Done := if s.regionOk then .ok s else .raised .region w s

/-- The element of pixel (row `i`, column `j`) (20_memory.md R62). -/
def State.pixelAddr (s : State) (i j : Nat) : Nat := i * s.regs.frameW.toNat + j

/-- The channel mask of step `k`: `(0xFF << k) & 0xFF` (41_palette_quantizer.md R136, R137). -/
def channelMask (k : Nat) : Byte := BitVec.ofNat 8 (0xFF <<< k)

/-- A pixel with mask `m` on every channel (41_palette_quantizer.md R136). -/
def maskPixel (p : Pixel) (m : Byte) : Pixel := { r := p.r &&& m, g := p.g &&& m, b := p.b &&& m }

/-- `CLEAR = 2^d` (42_lzw_compressor.md R151). -/
def clearCode (d : Nat) : Nat := 2 ^ d

/-- `STOP = 2^d + 1` (42_lzw_compressor.md R151). -/
def stopCode (d : Nat) : Nat := 2 ^ d + 1

/-- The first assignable code, `2^d + 2` (42_lzw_compressor.md R151). -/
def firstCode (d : Nat) : Nat := 2 ^ d + 2

/-- `MAX_CODES` (00_scope.md R6). -/
def maxCodes : Nat := 4096

/-- `CUR`'s value for the root (10_state.md R40). -/
def rootCur : BitVec 13 := 0x1000#13

/-- `CUR = ROOT`: "bit 12 set means the root" (10_state.md R40; log 5). -/
def State.curIsRoot (s : State) : Bool := s.cur.getLsbD 12

end Sys2Proof.Machine
end

