-- ==== Sys2Proof/Machine/Control.lean ====
section
/-! DEFINITION. The control commands `NOP` and `SET` (40_control_commands.md R121, R122). -/

namespace Sys2Proof.Machine

/-- `NOP`: only `PC` advances (40_control_commands.md R121). -/
def execNop (s : State) : Host.Outcome State Fault Refusal := finish (.ok s)

/-- `SET`: `E_ILLREG` if the index names no register, otherwise the register takes the value unchecked
(40_control_commands.md R122; log 13 for the ill-formed index, which the decoder already refuses). -/
def setBody (ra : Byte) (imm : Half) (s : State) : Done :=
  match cfgRegOf ra with
  | none => .raised .illReg (encode (.set ra imm)) s
  | some r => .ok (s.setCfg r imm)

/-- `SET reg, imm` (40_control_commands.md R122). -/
def execSet (ra : Byte) (imm : Half) (s : State) : Host.Outcome State Fault Refusal := finish (setBody ra imm s)

end Sys2Proof.Machine
end

