-- ==== Sys2Proof/Machine/Flags.lean ====
section
/-! DEFINITION. The flags of `STATUS` (10_state.md R30 to R33). -/

namespace Sys2Proof.Machine

/-- `STATUS` as the host reads it: bit 0 `FAULT`, bit 1 `OVF`, bit 2 `ACTIVE`, bits 15 to 3 zero (10_state.md R30). -/
def State.statusWord (s : State) : BitVec 16 :=
  0#13 ++ BitVec.ofBool s.active ++ BitVec.ofBool s.ovf ++ BitVec.ofBool s.fault

/-- The end of a palette pass: `STATUS.OVF` and `PAL_SIZE` (41_palette_quantizer.md R133). -/
def State.endPass (s : State) (ovf : Bool) (size : Nat) : State :=
  { s with ovf := ovf, palSize := BitVec.ofNat 9 size }

/-- `STATUS.ACTIVE <- 1` (42_lzw_compressor.md R153). -/
def State.openFrame (s : State) : State := { s with active := true }

/-- `STATUS.ACTIVE <- 0` (42_lzw_compressor.md R157). -/
def State.closeFrame (s : State) : State := { s with active := false }

end Sys2Proof.Machine
end

