-- ==== Sys2Proof/Machine/Packer.lean ====
section
/-! DEFINITION. The code packer's operations `Emit`, `PushByte`, `Close` (43_code_packer.md R172, R173, R176). -/

namespace Sys2Proof.Machine

/-- `BUF[0 .. n-1]` in order. -/
def State.bufBytes (s : State) (n : Nat) : List Byte := (List.range n).map s.readBuf

/-- A sub-block of the first `n` bytes of `BUF` written to `OUT`: the length byte, then the data (43_code_packer.md R174);
`BUF` is empty afterwards. -/
def State.flush (s : State) (n : Nat) : State :=
  { s.outBytes (BitVec.ofNat 8 n :: s.bufBytes n) with bufCnt := 0#8 }

/-- `PushByte(b)` (43_code_packer.md R173). `BUFCNT = 255`, which no run reaches, would write outside `BUF` (log 6). -/
def pushByte (b : Byte) (s : State) : Done :=
  if bufEntries ≤ s.bufCnt.toNat then .stopped (.outsideSpace .buf s.bufCnt.toNat)
  else
    let s' := { s.writeBuf s.bufCnt.toNat b with bufCnt := BitVec.ofNat 8 (s.bufCnt.toNat + 1) }
    if s.bufCnt.toNat + 1 = bufEntries then .ok (s'.flush bufEntries) else .ok s'

/-- The loop of `Emit`: `k` whole bytes are taken off the low end of the accumulator, the rest of `n` bits is kept
(43_code_packer.md R172). -/
def drain : Nat → Nat → Nat → State → Done
  | 0, acc, n, s => .ok { s with partialByte := BitVec.ofNat 8 acc, nbits := BitVec.ofNat 3 n }
  | k + 1, acc, n, s => (pushByte (BitVec.ofNat 8 acc) s).bind (drain k (acc >>> 8) (n - 8))

/-- `Emit(c, wd)`, for `1 <= wd <= 12` and `c < 2^wd` (43_code_packer.md R172; log 7 for other arguments, which no run
reaches). While `n >= 8` a byte is pushed, so `n / 8` bytes. -/
def emit (c wd : Nat) (s : State) : Done :=
  if 1 ≤ wd ∧ wd ≤ 12 ∧ c < 2 ^ wd then
    drain ((s.nbits.toNat + wd) / 8) (s.partialByte.toNat ||| c <<< s.nbits.toNat) (s.nbits.toNat + wd) s
  else .stopped (.codeTooWide c wd)

/-- The first part of `Close`: a partial byte is pushed, its high bits zero (43_code_packer.md R176). -/
def closePartial (s : State) : Done :=
  if s.nbits = 0#3 then .ok s
  else (pushByte s.partialByte s).bind fun s => .ok { s with partialByte := 0#8, nbits := 0#3 }

/-- The rest of `Close`: the short sub-block if bytes are left, then the terminator (43_code_packer.md R176). -/
def closeBlocks (s : State) : State :=
  (if s.bufCnt = 0#8 then s else s.flush s.bufCnt.toNat).outBytes [0x00#8]

/-- `Close` (43_code_packer.md R176). -/
def packClose (s : State) : Done := (closePartial s).bind fun s => .ok (closeBlocks s)

end Sys2Proof.Machine
end

