-- ==== Sys2Proof/Machine/Lzw.lean ====
section
/-! DEFINITION. The LZW compressor's commands `LZWBEGIN`, `LZWPIX`, `LZWEND`, `LZWENC` and the per-pixel step
(42_lzw_compressor.md). -/

namespace Sys2Proof.Machine

/-- `CUR <- v`: the root's child for `v`, a base code (42_lzw_compressor.md R156). -/
def State.curBase (s : State) (v : Byte) : State := { s with cur := v.zeroExtend 13 }

/-- `CUR <- c`, a code of the trie (42_lzw_compressor.md R156). -/
def State.curCode (s : State) (c : Code) : State := { s with cur := c.zeroExtend 13 }

/-- `CUR <- ROOT` (10_state.md R40). -/
def State.curRoot (s : State) : State := { s with cur := rootCur }

/-- `TrieReset` (42_lzw_compressor.md R152): every entry `NONE`. -/
def State.trieReset (s : State) : State :=
  { s with
    trie := []
    nextCode := BitVec.ofNat 13 (firstCode s.lzwD.toNat)
    codeWidth := BitVec.ofNat 4 (s.lzwD.toNat + 1) }

/-- The insertion of a miss with the table not full: the width grows first if `NEXT_CODE` does not fit it, then the
child `NEXT_CODE` is attached to `CUR` along `v` (42_lzw_compressor.md R156). -/
def State.attach (s : State) (v : Byte) : State :=
  let width := if s.nextCode.toNat = 2 ^ s.codeWidth.toNat then s.codeWidth.toNat + 1 else s.codeWidth.toNat
  { s.writeTrie s.cur.toNat v (some (BitVec.ofNat 12 s.nextCode.toNat)) with
    codeWidth := BitVec.ofNat 4 width
    nextCode := BitVec.ofNat 13 (s.nextCode.toNat + 1) }

/-- What follows the emission of a miss: insertion, or clear code and rebuild when the table is full, and then `CUR` is
the base code of `v` (42_lzw_compressor.md R156). -/
def afterMiss (v : Byte) (s : State) : Done :=
  if s.nextCode.toNat < maxCodes then .ok ((s.attach v).curBase v)
  else (emit (clearCode s.lzwD.toNat) s.codeWidth.toNat s).bind fun s => .ok (s.trieReset.curBase v)

/-- `PixStep(v, info)` (42_lzw_compressor.md R155, R156). -/
def pixStep (v : Byte) (info : Word) (s : State) : Done :=
  if 2 ^ s.lzwD.toNat ≤ v.toNat then .raised .pixRange info s
  else if s.curIsRoot then .ok (s.curBase v)
  else match s.readTrie s.cur.toNat v with
    | some c => .ok (s.curCode c)
    | none => (emit s.cur.toNat s.codeWidth.toNat s).bind (afterMiss v)

/-- `LZW_D <- x[DEPTH]`; `TrieReset`; `CUR <- ROOT`; `STATUS.ACTIVE <- 1` (42_lzw_compressor.md R153). -/
def State.beginFrame (s : State) : State :=
  { s with lzwD := BitVec.ofNat 4 s.regs.depth.toNat }.trieReset.curRoot.openFrame

/-- The body of `LZWBEGIN` after its checks (42_lzw_compressor.md R153). -/
def beginBody (s : State) : Done :=
  if s.params.leadingClear then
    emit (clearCode s.beginFrame.lzwD.toNat) s.beginFrame.codeWidth.toNat s.beginFrame
  else .ok s.beginFrame

/-- `TRIE` after a frame is unspecified (42_lzw_compressor.md R157): a free value (log 3). -/
def State.discardTrie (s : State) : State :=
  { s with trie := Memory.ofWrites trieNone trieEntries (Config.freeTrie s.freeCtr), freeCtr := s.freeCtr + 1 }

/-- The body of `LZWEND` after its checks: last code, stop code, `Close`, the frame is over (42_lzw_compressor.md R157). -/
def endBody (s : State) : Done :=
  (emit s.cur.toNat s.codeWidth.toNat s).bind fun s =>
    (emit (stopCode s.lzwD.toNat) s.codeWidth.toNat s).bind fun s =>
      (packClose s).bind fun s => .ok s.closeFrame.curRoot.discardTrie

/-- `E_EMPTY` if the frame has no pixel (42_lzw_compressor.md R157). -/
def emptyCheck (w : Word) (s : State) : Done := if s.curIsRoot then .raised .empty w s else .ok s

/-- One row of the region: `n` pixels from element `a` on (42_lzw_compressor.md R158). -/
def scanRow (n a : Nat) (s : State) : Done :=
  forFrom n a (fun a s => pixStep (s.readIdx a) (BitVec.ofNat 32 a) s) s

/-- The region in row-major order (42_lzw_compressor.md R158). -/
def scanRegion (s : State) : Done :=
  forFrom s.regs.regH.toNat s.regs.regY.toNat
    (fun i s => scanRow s.regs.regW.toNat (s.pixelAddr i s.regs.regX.toNat) s) s

/-- The body of `LZWENC` with its checks, for command word `w` (42_lzw_compressor.md R158). -/
def lzwencBody (w : Word) (s : State) : Done :=
  (closedCheck w s).bind fun s => (depthCheck w s).bind fun s => (frameCheck w s).bind fun s =>
    (regionCheck w s).bind fun s =>
      (beginBody s).bind fun s => (scanRegion s).bind endBody

/-- `LZWBEGIN` (42_lzw_compressor.md R153). -/
def execLzwbegin (s : State) : Host.Outcome State Fault Refusal :=
  finish ((closedCheck (encode .lzwbegin) s).bind fun s => (depthCheck (encode .lzwbegin) s).bind beginBody)

/-- `LZWPIX v` (42_lzw_compressor.md R154). -/
def execLzwpix (v : Byte) (s : State) : Host.Outcome State Fault Refusal :=
  finish ((openCheck (encode (.lzwpix v)) s).bind (pixStep v (encode (.lzwpix v))))

/-- `LZWEND` (42_lzw_compressor.md R157). -/
def execLzwend (s : State) : Host.Outcome State Fault Refusal :=
  finish ((openCheck (encode .lzwend) s).bind fun s => (emptyCheck (encode .lzwend) s).bind endBody)

/-- `LZWENC` (42_lzw_compressor.md R158). -/
def execLzwenc (s : State) : Host.Outcome State Fault Refusal := finish (lzwencBody (encode .lzwenc) s)

end Sys2Proof.Machine
end

