-- ==== Sys2Proof/Machine/Palette.lean ====
section
/-! DEFINITION. The palette quantizer's commands `PBUILD`, `PMASK`, `PINDEX`, `QUANT` (41_palette_quantizer.md). -/

namespace Sys2Proof.Machine

/-- The lowest position below `size` whose palette entry equals `p` (41_palette_quantizer.md R133, R138). -/
def State.palFind (s : State) (size : Nat) (p : Pixel) : Option Nat :=
  (List.range size).find? fun m => decide (s.readPal m = p)

/-- The scan of `PBUILD` over the elements `k .. k + n - 1`, `size` colours accepted so far; it stops early on
overflow (41_palette_quantizer.md R133). -/
def pbuildScan : Nat → Nat → Nat → State → Done
  | 0, _, size, s => .ok (s.endPass false size)
  | n + 1, k, size, s =>
    match s.palFind size (s.readTc k) with
    | some _ => pbuildScan n (k + 1) size s
    | none =>
      if size = s.regs.maxsize.toNat then .ok (s.endPass true size)
      else pbuildScan n (k + 1) (size + 1) (s.writePal size (s.readTc k))

/-- One pass of the Palette Builder: the first pixel is accepted unconditionally (41_palette_quantizer.md R133). -/
def pbuildPass (s : State) : Done := pbuildScan (s.frameArea - 1) 1 1 (s.writePal 0 (s.readTc 0))

/-- The body of `PBUILD` with its checks, for command word `w` (41_palette_quantizer.md R133). -/
def pbuildBody (w : Word) (s : State) : Done :=
  (frameCheck w s).bind fun s => (maxsizeCheck w s).bind pbuildPass

/-- `E_MASKLIM` if eight steps have been made (41_palette_quantizer.md R136). -/
def maskLimCheck (w : Word) (s : State) : Done :=
  if 8 ≤ s.regs.maskStep.toNat then .raised .maskLim w s else .ok s

/-- The mask applied to every pixel of the frame in place (41_palette_quantizer.md R136). -/
def maskFrame (s : State) : Done :=
  forFrom s.frameArea 0
    (fun k s => .ok (s.writeTc k (maskPixel (s.readTc k) (channelMask s.regs.maskStep.toNat)))) s

/-- The body of `PMASK` with its checks, for command word `w` (41_palette_quantizer.md R136). -/
def pmaskBody (w : Word) (s : State) : Done :=
  (frameCheck w s).bind fun s => (maskLimCheck w s).bind fun s =>
    maskFrame (s.setCfg .maskStep (BitVec.ofNat 16 (s.regs.maskStep.toNat + 1)))

/-- `PINDEX` on one pixel: its lowest palette match, or `E_NOMATCH` with its address (41_palette_quantizer.md R138).
With `PAL_SIZE > 256`, which no run reaches, the search would leave `PAL` (log 6). -/
def pindexPixel (k : Nat) (s : State) : Done :=
  if palEntries < s.palSize.toNat then .stopped (.outsideSpace .pal palEntries)
  else match s.palFind s.palSize.toNat (s.readTc k) with
    | none => .raised .noMatch (BitVec.ofNat 32 k) s
    | some m => .ok (s.writeIdx k (BitVec.ofNat 8 m))

/-- The body of `PINDEX` with its check, for command word `w` (41_palette_quantizer.md R138). -/
def pindexBody (w : Word) (s : State) : Done :=
  (frameCheck w s).bind fun s => forFrom s.frameArea 0 pindexPixel s

/-- `while STATUS.OVF = 1: PMASK; PBUILD` (41_palette_quantizer.md R139). The first argument bounds the iterations: with
`MASK_STEP` starting at 0 the ninth `PMASK` raises `E_MASKLIM`, so a bound of 8 cuts nothing off (log 14). -/
def quantLoop (w : Word) : Nat → State → Done
  | 0, s => if s.ovf then pmaskBody w s else .ok s
  | n + 1, s =>
    if s.ovf then (pmaskBody w s).bind fun s => (pbuildBody w s).bind (quantLoop w n) else .ok s

/-- The body of `QUANT` with its checks, for command word `w` (41_palette_quantizer.md R139). -/
def quantBody (w : Word) (s : State) : Done :=
  (frameCheck w s).bind fun s => (maxsizeCheck w s).bind fun s =>
    (pbuildBody w (s.setCfg .maskStep 0#16)).bind fun s =>
      (quantLoop w 8 s).bind (pindexBody w)

/-- `PBUILD` (41_palette_quantizer.md R133). -/
def execPbuild (s : State) : Host.Outcome State Fault Refusal := finish (pbuildBody (encode .pbuild) s)

/-- `PMASK` (41_palette_quantizer.md R136). -/
def execPmask (s : State) : Host.Outcome State Fault Refusal := finish (pmaskBody (encode .pmask) s)

/-- `PINDEX` (41_palette_quantizer.md R138). -/
def execPindex (s : State) : Host.Outcome State Fault Refusal := finish (pindexBody (encode .pindex) s)

/-- `QUANT` (41_palette_quantizer.md R139). -/
def execQuant (s : State) : Host.Outcome State Fault Refusal := finish (quantBody (encode .quant) s)

end Sys2Proof.Machine
end

