-- ==== Sys2Proof/Machine/Dispatch.lean ====
section
/-! DEFINITION. The meaning of every command: one arm per constructor (30_encoding.md R91). -/

namespace Sys2Proof.Machine

def exec (i : Instr) (s : State) : Host.Outcome State Fault Refusal :=
  match i with
  | .nop => Sys2Proof.Machine.execNop s
  | .set ra imm => Sys2Proof.Machine.execSet ra imm s
  | .pbuild => Sys2Proof.Machine.execPbuild s
  | .pmask => Sys2Proof.Machine.execPmask s
  | .pindex => Sys2Proof.Machine.execPindex s
  | .quant => Sys2Proof.Machine.execQuant s
  | .lzwbegin => Sys2Proof.Machine.execLzwbegin s
  | .lzwpix v => Sys2Proof.Machine.execLzwpix v s
  | .lzwend => Sys2Proof.Machine.execLzwend s
  | .lzwenc => Sys2Proof.Machine.execLzwenc s

end Sys2Proof.Machine
end

