-- ==== Sys2Proof/Machine/Sequencer.lean ====
section
/-! DEFINITION. The execution cycle (40_control_commands.md R120): a word taken from the queue is decoded and run, or its
decoding fault is taken. -/

namespace Sys2Proof.Machine

/-- A word taken from the head of `CMDQ`: decode, then execute (40_control_commands.md R120, 30_encoding.md R93). -/
def execWord (w : Word) (s : State) : Host.Outcome State Fault Refusal :=
  match decode w with
  | .ok i => exec i s
  | .error e => finish (.raised (decodeErrCode e) w s)

/-- One turn of the sequencer: the next command as one atomic transition (10_state.md R28); a quiescent block stays as it
is (10_state.md R29, 60_exceptions.md R185; log 4). -/
def sequencerTurn (s : State) : Host.Outcome State Fault Refusal :=
  match s.fetch with
  | none => .next s
  | some (w, s') => execWord w s'

/-- A word put at the head of `CMDQ`, where the sequencer takes its next word (10_state.md R28). -/
def State.queueFirst (s : State) (w : Word) : State := { s with cmdq := w :: s.cmdq }

end Sys2Proof.Machine
end

