-- ==== Sys2Proof/Machine/Step.lean ====
section
/-! DEFINITION. One step of the block, and the placing of a command word where the next step takes it. -/

namespace Sys2Proof.Machine

/-- One step: one turn of the sequencer (40_control_commands.md R120). -/
def step (s : State) : Host.Outcome State Fault Refusal := sequencerTurn s

/-- The state with a command word, given by its low `nbits` bits, at the head of `CMDQ` (log 9). -/
def State.withFetchWord (s : State) (nbits w : Nat) : State := s.queueFirst (tableWord nbits w)

end Sys2Proof.Machine
end

