-- ==== Sys2Proof/Machine/HostPort.lean ====
section
/-! DEFINITION. What the host can do to the block (70_reset_and_hazards.md R200, R207, R208). These are moves of the other
agent: `step` makes none of them (log 10). -/

namespace Sys2Proof.Machine

/-- The host's moves that change the block (70_reset_and_hazards.md R207). There is none that writes a register and none
that reaches `TRIE`, `BUF` or the queue's contents. -/
inductive HostMove where
  /-- Append a word to `CMDQ`; any time. -/
  | append (w : Word)
  /-- Assert `RESET`; any time. `m` is what the memories happen to hold afterwards. -/
  | reset (m : Contents)
  /-- Write an element of `TC`; quiescent. -/
  | writeTc (a : Nat) (p : Pixel)
  /-- Write an element of `PAL`; quiescent. -/
  | writePal (a : Nat) (p : Pixel)
  /-- Write an element of `IDX`; quiescent. -/
  | writeIdx (a : Nat) (b : Byte)
deriving DecidableEq, Repr

/-- A host write of one element: only while quiescent (70_reset_and_hazards.md R208), only inside the space
(20_memory.md R60); outside it, where the spec gives no behaviour, the model stops (log 6). -/
def hostWrite (sp : Space) (size a : Nat) (s s' : State) : Host.Outcome State Fault Refusal :=
  if s.quiescent then
    if a < size then .next s' else .fault (.outsideSpace sp a)
  else .refused .hostNotQuiescent

/-- The effect of a host move (70_reset_and_hazards.md R207). -/
def hostMove (m : HostMove) (s : State) : Host.Outcome State Fault Refusal :=
  match m with
  | .append w => .next { s with cmdq := s.cmdq ++ [w] }
  | .reset c => .next (s.takeReset c)
  | .writeTc a p => hostWrite .tc s.params.frameCap a s (s.writeTc a p)
  | .writePal a p => hostWrite .pal palEntries a s (s.writePal a p)
  | .writeIdx a b => hostWrite .idx s.params.frameCap a s (s.writeIdx a b)

/-- The value behind a host port number, zero-extended (70_reset_and_hazards.md R207); the other numbers name nothing. -/
def State.portValue (s : State) (port : Byte) : Option (BitVec 32) :=
  match cfgRegOf port with
  | some r => some ((s.regs.get r).zeroExtend 32)
  | none =>
    if port = 0x10#8 then some (s.statusWord.zeroExtend 32)
    else if port = 0x11#8 then some (s.err.zeroExtend 32)
    else if port = 0x12#8 then some s.errInfo
    else if port = 0x13#8 then some s.pc
    else if port = 0x14#8 then some (s.palSize.zeroExtend 32)
    else if port = 0x18#8 then some (s.lzwD.zeroExtend 32)
    else if port = 0x19#8 then some (s.codeWidth.zeroExtend 32)
    else if port = 0x1A#8 then some (s.nextCode.zeroExtend 32)
    else if port = 0x1B#8 then some (s.cur.zeroExtend 32)
    else if port = 0x1C#8 then some (s.nbits.zeroExtend 32)
    else if port = 0x1D#8 then some (s.partialByte.zeroExtend 32)
    else if port = 0x1E#8 then some (s.bufCnt.zeroExtend 32)
    else none

/-- A host read of a register: only while quiescent, only of a number that names a register; it changes nothing
(70_reset_and_hazards.md R207, R208). -/
def State.hostReadPort (s : State) (port : Byte) : Option (BitVec 32) :=
  if s.quiescent then s.portValue port else none

/-- A host read of one whole element, whose value is `v`, at address `a` of a space of `size` elements: only while
quiescent (70_reset_and_hazards.md R207, R208; log 10). DESIGN CHOICE: an address outside the space, of which the spec
gives the ranges (20_memory.md R60) and no behaviour, gives nothing (log 15). -/
def State.hostReadElement {α : Type} (s : State) (size a : Nat) (v : α) : Option α :=
  if s.quiescent && decide (a < size) then some v else none

/-- A host read of an element of `TC`; outside the space nothing, the model's choice (log 15). -/
def State.hostReadTc (s : State) (a : Nat) : Option Pixel := s.hostReadElement s.params.frameCap a (s.readTc a)

/-- A host read of an element of `PAL`; outside the space nothing, the model's choice (log 15). -/
def State.hostReadPal (s : State) (a : Nat) : Option Pixel := s.hostReadElement palEntries a (s.readPal a)

/-- A host read of an element of `IDX`; outside the space nothing, the model's choice (log 15). -/
def State.hostReadIdx (s : State) (a : Nat) : Option Byte := s.hostReadElement s.params.frameCap a (s.readIdx a)

/-- A host read of `OUT`: every byte emitted since reset; none is removed. -/
def State.hostReadOut (s : State) : Option (List Byte) := if s.quiescent then some s.out else none

end Sys2Proof.Machine
end

