-- ==== Sys2Proof/Safety.lean ====
section
/-! DEFINITION. The terms claims about the block are stated in: legality of operands as the rules word it, the invariant of
every run (10_state.md R33 to R44; 42_lzw_compressor.md R160; 43_code_packer.md R171), runs of the block with its host,
and the output stream as bits, sub-blocks and LZW codes (30_encoding.md R100 to R104). The machine uses none of this. -/

namespace Sys2Proof.Machine

/-! ### Legal operands -/

/-- What `FrameCheck` lets through (41_palette_quantizer.md R131). -/
def State.FrameLegal (s : State) : Prop :=
  1 ≤ s.regs.frameW.toNat ∧ 1 ≤ s.regs.frameH.toNat
    ∧ s.regs.frameW.toNat * s.regs.frameH.toNat ≤ s.params.frameCap

/-- What `MaxsizeCheck` lets through (41_palette_quantizer.md R132). -/
def State.MaxsizeLegal (s : State) : Prop := s.regs.maxsize.toNat ∈ [2, 4, 8, 16, 32, 64, 128, 256]

/-- A depth `LZWBEGIN` accepts (42_lzw_compressor.md R153). -/
def State.DepthLegal (s : State) : Prop := 1 ≤ s.regs.depth.toNat ∧ s.regs.depth.toNat ≤ 8

/-- A region `LZWENC` accepts (42_lzw_compressor.md R158). -/
def State.RegionLegal (s : State) : Prop :=
  1 ≤ s.regs.regW.toNat ∧ 1 ≤ s.regs.regH.toNat
    ∧ s.regs.regX.toNat + s.regs.regW.toNat ≤ s.regs.frameW.toNat
    ∧ s.regs.regY.toNat + s.regs.regH.toNat ≤ s.regs.frameH.toNat

/-! ### The invariant -/

/-- The five memories are in canonical form and inside their spaces (20_memory.md R60). -/
def State.MemOk (s : State) : Prop :=
  (Memory.wf unwrittenPixel s.tc = true ∧ Memory.within s.params.frameCap s.tc = true)
    ∧ (Memory.wf unwrittenPixel s.pal = true ∧ Memory.within palEntries s.pal = true)
    ∧ (Memory.wf unwrittenByte s.idx = true ∧ Memory.within s.params.frameCap s.idx = true)
    ∧ (Memory.wf trieNone s.trie = true ∧ Memory.within trieEntries s.trie = true)
    ∧ (Memory.wf unwrittenByte s.buf = true ∧ Memory.within bufEntries s.buf = true)

/-- `ERR` and `ERRINFO` are zero while no fault is taken, `ERR` is one of the nine codes otherwise (10_state.md R34, R35). -/
def State.FaultOk (s : State) : Prop :=
  (s.fault = false → s.err = 0#8 ∧ s.errInfo = 0#32)
    ∧ (s.fault = true → 1 ≤ s.err.toNat ∧ s.err.toNat ≤ 9)

/-- The packer between operations (43_code_packer.md R171). -/
def State.PackerOk (s : State) : Prop := s.partialByte.toNat < 2 ^ s.nbits.toNat ∧ s.bufCnt.toNat ≤ 254

/-- With no frame open the packer is empty and `CUR` is the root (10_state.md R33, R40). -/
def State.ClosedOk (s : State) : Prop :=
  s.active = false → s.nbits = 0#3 ∧ s.partialByte = 0#8 ∧ s.bufCnt = 0#8 ∧ s.cur = rootCur

/-- `c` is a node of the trie other than the root: a base code or an assigned code (42_lzw_compressor.md R160 (b)). -/
def State.IsNode (s : State) (c : Nat) : Prop :=
  c < 2 ^ s.lzwD.toNat ∨ (firstCode s.lzwD.toNat ≤ c ∧ c < s.nextCode.toNat)

/-- The LZW registers of an open frame (10_state.md R37 to R40; 42_lzw_compressor.md R160 (a), (b)). -/
def State.LzwOk (s : State) : Prop :=
  s.active = true →
    (1 ≤ s.lzwD.toNat ∧ s.lzwD.toNat ≤ 8)
      ∧ (s.lzwD.toNat + 1 ≤ s.codeWidth.toNat ∧ s.codeWidth.toNat ≤ 12)
      ∧ (2 ^ (s.codeWidth.toNat - 1) < s.nextCode.toNat ∧ s.nextCode.toNat ≤ 2 ^ s.codeWidth.toNat)
      ∧ firstCode s.lzwD.toNat ≤ s.nextCode.toNat
      ∧ (s.cur = rootCur ∨ s.IsNode s.cur.toNat)

/-- The trie of an open frame: every valid entry holds an assigned code and stands in the row of a node and a column below
`2^LZW_D`, and every assigned code stands in exactly one entry (42_lzw_compressor.md R160 (c); 10_state.md R41). -/
def State.TrieOk (s : State) : Prop :=
  s.active = true →
    (∀ c ∈ s.trie, ∀ k, c.2 = some k →
        (firstCode s.lzwD.toNat ≤ k.toNat ∧ k.toNat < s.nextCode.toNat)
          ∧ s.IsNode (c.1 / 256) ∧ c.1 % 256 < 2 ^ s.lzwD.toNat)
      ∧ ∀ n, n < s.nextCode.toNat → firstCode s.lzwD.toNat ≤ n →
          s.trie.countP (fun c => decide (c.2 = some (BitVec.ofNat 12 n))) = 1

/-- The invariant of every run of the block with its host. -/
def State.Inv (s : State) : Prop :=
  s.MemOk ∧ s.FaultOk ∧ s.PackerOk ∧ s.ClosedOk ∧ s.LzwOk ∧ s.TrieOk ∧ s.palSize.toNat ≤ 256

/-! ### What a part of the block leaves alone -/

/-- `t` differs from `s` at most in what the packer owns: `NBITS`, `PARTIAL`, `BUFCNT`, `BUF`, `OUT` (43_code_packer.md R171). -/
def SameButPacker (s t : State) : Prop :=
  t = { s with nbits := t.nbits, partialByte := t.partialByte, bufCnt := t.bufCnt, buf := t.buf, out := t.out }

/-- `t` differs from `s` at most in what the LZW unit and the packer own: `LZW_D`, `CODE_WIDTH`, `NEXT_CODE`, `CUR`,
`TRIE`, `STATUS.ACTIVE`, the packer's state, and the model's own count of free values. -/
def SameButLzw (s t : State) : Prop :=
  t = { s with
    lzwD := t.lzwD, codeWidth := t.codeWidth, nextCode := t.nextCode, cur := t.cur, trie := t.trie
    active := t.active, freeCtr := t.freeCtr
    nbits := t.nbits, partialByte := t.partialByte, bufCnt := t.bufCnt, buf := t.buf, out := t.out }

/-- `t` differs from `s` at most in what the palette quantizer owns: `MASK_STEP`, `STATUS.OVF`, `PAL_SIZE`, `TC`, `PAL`,
`IDX` (41_palette_quantizer.md). -/
def SameButPalette (s t : State) : Prop :=
  t = { s with
    regs := { s.regs with maskStep := t.regs.maskStep }
    ovf := t.ovf, palSize := t.palSize, tc := t.tc, pal := t.pal, idx := t.idx }

/-! ### Runs -/

/-- One transition of the block with its host: the block takes a step, or the host moves (00_scope.md section 9). -/
inductive Move : State → State → Prop where
  | block {s t : State} (h : step s = .next t) : Move s t
  | host {s t : State} (m : HostMove) (h : hostMove m s = .next t) : Move s t

/-- The states a session of the block can reach, from a reset with any memory contents (70_reset_and_hazards.md R200, R201). -/
inductive Reachable (p : Params) : State → Prop where
  | reset (m : Contents) : Reachable p ((State.launch p Contents.blank 0).takeReset m)
  | move {s t : State} (h : Reachable p s) (m : Move s t) : Reachable p t

/-- A run has ended well: quiescent and no fault (60_exceptions.md R185, 70_reset_and_hazards.md R209). -/
def State.endedWell (s : State) : Bool := s.quiescent && !s.fault

/-- Commands executed one after the other; after a fault no further one is (60_exceptions.md R185). -/
def runCommands : List Instr → State → Host.Outcome State Fault Refusal
  | [], s => .next s
  | i :: is, s =>
    match exec i s with
    | .next t => if t.fault then .next t else runCommands is t
    | .fault r => .fault r
    | .refused r => .refused r

/-! ### Frames of pixels -/

/-- The distinct elements of a list in order of first occurrence (41_palette_quantizer.md R134). -/
def distinctColours (ps : List Pixel) : List Pixel :=
  ps.foldl (fun acc p => if p ∈ acc then acc else acc ++ [p]) []

/-- The true-colour frame, row by row (41_palette_quantizer.md R130). -/
def State.framePixels (s : State) : List Pixel := (List.range s.frameArea).map s.readTc

/-- A channel with its low `k` bits cleared (41_palette_quantizer.md R137). -/
def clearLow (k : Nat) (c : Byte) : Byte := BitVec.ofNat 8 (c.toNat - c.toNat % 2 ^ k)

/-- A pixel with the low `k` bits of every channel cleared. -/
def clearLowPixel (k : Nat) (p : Pixel) : Pixel := { r := clearLow k p.r, g := clearLow k p.g, b := clearLow k p.b }

/-- The element addresses of the region in row-major order (42_lzw_compressor.md R158). -/
def State.regionAddrs (s : State) : List Nat :=
  (List.range s.regs.regH.toNat).flatMap fun i =>
    (List.range s.regs.regW.toNat).map fun j =>
      (s.regs.regY.toNat + i) * s.regs.frameW.toNat + (s.regs.regX.toNat + j)

/-- The pixels `LZWENC` reads, in order. -/
def State.regionPixels (s : State) : List Byte := s.regionAddrs.map s.readIdx

/-! ### The output stream -/

/-- The `n` low bits of a number, lowest first: a code in its width (30_encoding.md R104). -/
def lowBits (n c : Nat) : List Bool := (List.range n).map c.testBit

/-- The bits of bytes, lowest bit of the first byte first (30_encoding.md R104). -/
def bitsOfBytes (bs : List Byte) : List Bool := bs.flatMap fun b => lowBits 8 b.toNat

/-- Codes with their widths, laid end to end (30_encoding.md R104). -/
def bitsOfCodes (cs : List (Nat × Nat)) : List Bool := cs.flatMap fun c => lowBits c.2 c.1

/-- The bits the packer holds that are not yet in `OUT`: the bytes of `BUF`, then the partial byte (10_state.md R42 to R45). -/
def State.heldBits (s : State) : List Bool :=
  bitsOfBytes (s.bufBytes s.bufCnt.toNat) ++ lowBits s.nbits.toNat s.partialByte.toNat

/-- From `s` to `t` the packer took in `bits`: full sub-blocks of 255 bytes went to `OUT`, the rest is held
(43_code_packer.md R170, R172). -/
def Takes (s t : State) (bits : List Bool) : Prop :=
  ∃ blocks : List (List Byte),
    (∀ b ∈ blocks, b.length = 255)
      ∧ t.out = s.out ++ blocks.flatMap (fun b => 0xFF#8 :: b)
      ∧ bitsOfBytes blocks.flatten ++ t.heldBits = s.heldBits ++ bits
      ∧ t.PackerOk

/-- `out` is the image data of the data bytes `data`: full sub-blocks of 255 bytes, at most one shorter one, one
terminator (30_encoding.md R100, R101). -/
inductive ImageData : List Byte → List Byte → Prop where
  | terminator : ImageData [] [0x00#8]
  | short (d : List Byte) (h1 : 1 ≤ d.length) (h2 : d.length ≤ 254) :
      ImageData d (BitVec.ofNat 8 d.length :: d ++ [0x00#8])
  | full (b rest out : List Byte) (h : b.length = 255) (ih : ImageData rest out) :
      ImageData (b ++ rest) (0xFF#8 :: b ++ out)

/-- `out` is the image data of a bit stream: padded with zero bits to whole bytes, framed (30_encoding.md R100, R104). -/
def ImageOfBits (bits : List Bool) (out : List Byte) : Prop :=
  ∃ (data : List Byte) (pad : Nat),
    pad < 8 ∧ bitsOfBytes data = bits ++ List.replicate pad false ∧ ImageData data out

/-! ### LZW without a trie: codes stand for pixel strings (42_lzw_compressor.md R150) -/

/-- The compressor in terms of strings: the pixels matched so far, the strings with assigned codes in the order of their
codes, the code width. -/
structure StringLzw where
  matched : List Byte
  dict : List (List Byte)
  width : Nat
deriving DecidableEq, Repr

/-- The code of a string: its pixel for one pixel, otherwise its place among the assigned codes (30_encoding.md R102). -/
def StringLzw.codeOf (d : Nat) (z : StringLzw) : Nat :=
  match z.matched with
  | [v] => v.toNat
  | str => firstCode d + z.dict.idxOf str

/-- One pixel: the codes it causes and the compressor after it (42_lzw_compressor.md R156). -/
def StringLzw.feed (d : Nat) (z : StringLzw) (v : Byte) : List (Nat × Nat) × StringLzw :=
  if z.matched = [] then ([], { z with matched := [v] })
  else if z.matched ++ [v] ∈ z.dict then ([], { z with matched := z.matched ++ [v] })
  else if firstCode d + z.dict.length < maxCodes then
    ([(z.codeOf d, z.width)],
      { matched := [v], dict := z.dict ++ [z.matched ++ [v]]
        width := if firstCode d + z.dict.length = 2 ^ z.width then z.width + 1 else z.width })
  else ([(z.codeOf d, z.width), (clearCode d, z.width)], { matched := [v], dict := [], width := d + 1 })

/-- All pixels in turn. -/
def StringLzw.feedAll (d : Nat) : StringLzw → List Byte → List (Nat × Nat) × StringLzw
  | z, [] => ([], z)
  | z, v :: vs =>
    ((z.feed d v).1 ++ (StringLzw.feedAll d (z.feed d v).2 vs).1, (StringLzw.feedAll d (z.feed d v).2 vs).2)

/-- A fresh compressor of depth `d` (42_lzw_compressor.md R152). -/
def StringLzw.fresh (d : Nat) : StringLzw := { matched := [], dict := [], width := d + 1 }

/-- The codes of one frame with their widths (30_encoding.md R104). -/
def frameCodes (leadingClear : Bool) (d : Nat) (pixels : List Byte) : List (Nat × Nat) :=
  let r := (StringLzw.fresh d).feedAll d pixels
  (if leadingClear then [(clearCode d, d + 1)] else [])
    ++ r.1 ++ [(r.2.codeOf d, r.2.width), (stopCode d, r.2.width)]

end Sys2Proof.Machine
end

