-- ==== Sys2Proof/Certificates/Slice0/Obligations.lean ====
section
/-! DEFINITION. The statements about the block, each from the rules of spec/ that its docstring names. Where a rule rests on
a decision of the spec (D<n> of 92_eei_decisions.md) or on an inference the spec marks as its own, the docstring says so. -/

open Sys2Proof Sys2Proof.Machine

/-! ### Encoding -/

/-- Decoding the word of a well-formed instruction gives the instruction back, at every value of every operand
(30_encoding.md, Part A; the spec's decision D3). -/
def Obligations.DecodeOfEncodeIsInstruction : Prop :=
  ∀ i : Instr, i.wellFormed = true → decode (encode i) = .ok i

/-- A word that decodes is the word of the instruction it decodes to, and that instruction is well-formed: no two words
are one command (30_encoding.md, Part A; the spec's decision D3). -/
def Obligations.EncodeOfDecodeIsWord : Prop :=
  ∀ (w : Word) (i : Instr), decode w = .ok i → encode i = w ∧ i.wellFormed = true

/-- 30_encoding.md R94 (the spec's decision D3): exactly which words are illegal, and how. `E_ILLREG` for a `SET` with
`RA` in 0x09 .. 0xFF; `E_ILLCMD` for a reserved opcode or a non-zero field the command does not use; every other word is a
command and no command has two words. -/
def Obligations.IllegalWordsFaultByName : Prop :=
  ∀ w : Word,
    (decode w = .error .illReg ↔ w.extractLsb' 24 8 = 0x01#8 ∧ 9 ≤ (w.extractLsb' 16 8).toNat)
      ∧ (decode w = .error .illCmd ↔
          w.extractLsb' 24 8 ∉ [0x00#8, 0x01#8, 0x10#8, 0x11#8, 0x12#8, 0x13#8, 0x20#8, 0x21#8, 0x22#8, 0x23#8]
            ∨ (w.extractLsb' 24 8 ≠ 0x01#8 ∧ w.extractLsb' 16 8 ≠ 0#8)
            ∨ (w.extractLsb' 24 8 = 0x21#8 ∧ w.extractLsb' 8 8 ≠ 0#8)
            ∨ (w.extractLsb' 24 8 ≠ 0x01#8 ∧ w.extractLsb' 24 8 ≠ 0x21#8 ∧ w.extractLsb' 0 16 ≠ 0#16))
      ∧ ∀ w' i, decode w = .ok i → decode w' = .ok i → w = w'

/-- Words written out from 30_encoding.md, Part A and 95_test_vectors.md section 2 decode to their commands. A sanity
statement. -/
def Obligations.SampleWordsDecode : Prop :=
  decode 0x00000000#32 = .ok .nop ∧ decode 0x01000005#32 = .ok (.set 0#8 5#16)
    ∧ decode 0x0108FFFF#32 = .ok (.set 8#8 0xFFFF#16) ∧ decode 0x10000000#32 = .ok .pbuild
    ∧ decode 0x13000000#32 = .ok .quant ∧ decode 0x210000FF#32 = .ok (.lzwpix 255#8)
    ∧ decode 0x23000000#32 = .ok .lzwenc ∧ decode 0x01090000#32 = .error .illReg
    ∧ decode 0x21000100#32 = .error .illCmd ∧ decode 0x14000000#32 = .error .illCmd

/-! ### The execution cycle -/

/-- A step takes the word at the head of the queue and runs the command it decodes to (10_state.md section 3,
40_control_commands.md section 1). -/
def Obligations.StepRunsDecodedCommand : Prop :=
  ∀ (s : State) (w : Word) (rest : List Word) (i : Instr),
    s.fault = false → s.cmdq = w :: rest → decode w = .ok i → step s = exec i { s with cmdq := rest }

/-- A word at the head of the queue that is no command raises its decoding fault with the word in `ERRINFO`; nothing else
changes but the queue, `PC` included (30_encoding.md, Part A; 60_exceptions.md section 3). That the word has left the queue
is the model's reading (log 4). -/
def Obligations.StepTakesDecodeFault : Prop :=
  ∀ (s : State) (w : Word) (rest : List Word) (e : DecodeError),
    s.fault = false → s.cmdq = w :: rest → decode w = .error e →
      step s = .next { s with
        cmdq := rest, fault := true, err := (match e with | .illCmd => 0x01#8 | .illReg => 0x02#8), errInfo := w }

/-- A quiescent block executes nothing: with an empty queue, and with `FAULT` set whatever is queued or appended later
(10_state.md section 3; 60_exceptions.md section 3; that a step then leaves the state as it is, is the model's choice,
log 4). -/
def Obligations.QuiescentBlockStays : Prop :=
  ∀ s : State,
    (s.cmdq = [] → step s = .next s)
      ∧ (s.fault = true → ∀ ws : List Word, step { s with cmdq := s.cmdq ++ ws } = .next { s with cmdq := s.cmdq ++ ws })

/-- 10_state.md section 3 (`PC`; the spec's decision D27): a step that takes a word advances `PC` by one modulo `2^32` if
it raises no fault and leaves `PC` as it is if it does. That the word has left the queue also after a fault is the model's
reading (log 4, DEDUCED). -/
def Obligations.PcAdvancesUnlessFault : Prop :=
  ∀ (s t : State) (w : Word) (rest : List Word),
    s.fault = false → s.cmdq = w :: rest → step s = .next t →
      t.cmdq = rest ∧ t.pc.toNat = if t.fault then s.pc.toNat else (s.pc.toNat + 1) % 2 ^ 32

/-- A run over the words queued ends: from a state of the invariant, after as many steps as words are queued the block is
quiescent, and if it did not fault every word was executed and `PC` has counted them (70_reset_and_hazards.md section 3). -/
def Obligations.RunOfQueueEnds : Prop :=
  ∀ s : State, s.Inv →
    ∃ t : State, Host.Core.run Sys2Proof.core s.cmdq.length s = .next t ∧ t.quiescent = true
      ∧ (t.fault = false → t.cmdq = [] ∧ t.pc.toNat = (s.pc.toNat + s.cmdq.length) % 2 ^ 32)

/-! ### Control commands -/

/-- 40_control_commands.md R121 (the spec's decision D3): the word of `NOP` is zero, a word with its opcode and anything
else set faults `E_ILLCMD` at decoding, and from any state, an open frame included, `NOP` only advances `PC`. -/
def Obligations.NopOnlyAdvancesPc : Prop :=
  encode .nop = 0x00000000#32
    ∧ (∀ w : Word, w.extractLsb' 24 8 = 0x00#8 → w ≠ 0x00000000#32 → decode w = .error .illCmd)
    ∧ ∀ s : State, exec .nop s = .next { s with pc := s.pc + 1#32 }

/-- 40_control_commands.md R122 (the spec's decisions D3, D4): `SET` writes the immediate to the register its index names,
unchecked, and nothing else; an index above 8 faults `E_ILLREG`. -/
def Obligations.SetWritesOneRegister : Prop :=
  ∀ (ra : Byte) (imm : Half) (s : State),
    encode (.set ra imm) = 0x01000000#32 ||| (ra.zeroExtend 32 <<< 16) ||| imm.zeroExtend 32
      ∧ (ra.toNat ≤ 8 →
          ∃ (r : CfgReg) (t : State), exec (.set ra imm) s = .next t
            ∧ [CfgReg.frameW, .frameH, .regX, .regY, .regW, .regH, .depth, .maxsize, .maskStep][ra.toNat]? = some r
            ∧ t = { s with regs := t.regs, pc := s.pc + 1#32 }
            ∧ t.regs.get r = imm ∧ ∀ r', r' ≠ r → t.regs.get r' = s.regs.get r')
      ∧ (8 < ra.toNat →
          exec (.set ra imm) s = .next { s with fault := true, err := 0x02#8, errInfo := encode (.set ra imm) })

/-! ### The palette quantizer -/

/-- 41_palette_quantizer.md R131 (the spec's decisions D6, D14): `FrameCheck` comes first in `PBUILD`, `PMASK`, `PINDEX`,
`QUANT`; a frame with an empty side or more than `FRAME_CAP` pixels faults `E_CFG` and nothing but the fault record
changes. In `LZWENC` it comes after the checks of `STATUS.ACTIVE` and `DEPTH`. -/
def Obligations.FrameCheckFaults : Prop :=
  ∀ s : State, ¬ s.FrameLegal →
    (∀ i ∈ [Instr.pbuild, .pmask, .pindex, .quant],
        exec i s = .next { s with fault := true, err := 0x03#8, errInfo := encode i })
      ∧ (s.active = false → s.DepthLegal →
          exec .lzwenc s = .next { s with fault := true, err := 0x03#8, errInfo := encode .lzwenc })

/-- 41_palette_quantizer.md R132 (the spec's decision D4): a `MAXSIZE` that is none of the eight legal values faults `E_CFG`
in `PBUILD` and `QUANT`, after `FrameCheck`. -/
def Obligations.MaxsizeCheckFaults : Prop :=
  ∀ s : State, s.FrameLegal → ¬ s.MaxsizeLegal →
    ∀ i ∈ [Instr.pbuild, .quant], exec i s = .next { s with fault := true, err := 0x03#8, errInfo := encode i }

/-- 41_palette_quantizer.md R133, R135 (the spec's decisions D17, D34): `PBUILD` faults `E_CFG` on an illegal frame or
`MAXSIZE` before any state change; otherwise it completes, collects the distinct colours of the frame in order of first
occurrence up to `MAXSIZE`, sets `OVF` exactly when there are more, and writes nothing of `PAL` beyond the colours collected
and nothing else but `PAL_SIZE` and `OVF`. -/
def Obligations.PbuildCollectsDistinctColours : Prop :=
  ∀ s : State,
    (¬ (s.FrameLegal ∧ s.MaxsizeLegal) →
        exec .pbuild s = .next { s with fault := true, err := 0x03#8, errInfo := 0x10000000#32 })
      ∧ (s.FrameLegal → s.MaxsizeLegal →
        ∃ t : State, exec .pbuild s = .next t
          ∧ t = { s with pc := s.pc + 1#32, ovf := t.ovf, palSize := t.palSize, pal := t.pal }
          ∧ (t.ovf = true ↔ s.regs.maxsize.toNat < (distinctColours s.framePixels).length)
          ∧ t.palSize.toNat = min s.regs.maxsize.toNat (distinctColours s.framePixels).length
          ∧ (∀ m, m < t.palSize.toNat → (distinctColours s.framePixels)[m]? = some (t.readPal m))
          ∧ ∀ m, t.palSize.toNat ≤ m → t.readPal m = s.readPal m)

/-- After a `PBUILD` that ends with `OVF = 0` the palette has 1 to `MAXSIZE` entries, pairwise different, each a colour of
the frame, and every pixel of the frame equals exactly one (41_palette_quantizer.md section 3; the sentence "After a `PBUILD`
that ends with `STATUS.OVF = 0`" is an inference the spec marks as its own). -/
def Obligations.PbuildPaletteIsExact : Prop :=
  ∀ s t : State, s.fault = false → exec .pbuild s = .next t → t.fault = false → t.ovf = false →
    (1 ≤ t.palSize.toNat ∧ t.palSize.toNat ≤ s.regs.maxsize.toNat)
      ∧ (∀ m m', m < t.palSize.toNat → m' < t.palSize.toNat → t.readPal m = t.readPal m' → m = m')
      ∧ (∀ m, m < t.palSize.toNat → ∃ k, k < s.frameArea ∧ t.readPal m = s.readTc k)
      ∧ ∀ k, k < s.frameArea → ∃ m, m < t.palSize.toNat ∧ t.readPal m = s.readTc k

/-- 41_palette_quantizer.md R136 (the spec's decision D18): `PMASK` faults `E_MASKLIM` at eight steps; otherwise it
completes, adds one to `MASK_STEP`, and applies the mask of the new step to every channel of every pixel of the frame and to
nothing else. -/
def Obligations.PmaskMasksFrameInPlace : Prop :=
  ∀ s : State,
    (¬ s.FrameLegal → exec .pmask s = .next { s with fault := true, err := 0x03#8, errInfo := 0x11000000#32 })
      ∧ (s.FrameLegal → 8 ≤ s.regs.maskStep.toNat →
          exec .pmask s = .next { s with fault := true, err := 0x09#8, errInfo := 0x11000000#32 })
      ∧ (s.FrameLegal → s.regs.maskStep.toNat < 8 →
          ∃ (t : State) (m : Byte), exec .pmask s = .next t
            ∧ m = BitVec.ofNat 8 (0xFF <<< (s.regs.maskStep.toNat + 1) &&& 0xFF)
            ∧ t = { s with
                pc := s.pc + 1#32, regs := { s.regs with maskStep := s.regs.maskStep + 1#16 }, tc := t.tc }
            ∧ (∀ k, k < s.regs.frameW.toNat * s.regs.frameH.toNat →
                t.readTc k = { r := (s.readTc k).r &&& m, g := (s.readTc k).g &&& m, b := (s.readTc k).b &&& m })
            ∧ ∀ k, s.regs.frameW.toNat * s.regs.frameH.toNat ≤ k → t.readTc k = s.readTc k)

/-- 41_palette_quantizer.md R137 (the spec's decision D18): the eight masks are those of the rule's table, and `j` runs of
`PMASK` from step 0 clear the low `j` bits of every channel of the original frame, so after eight every pixel is black. -/
def Obligations.RepeatedMasksEqualOneMask : Prop :=
  (List.map channelMask [1, 2, 3, 4, 5, 6, 7, 8] = [0xFE#8, 0xFC#8, 0xF8#8, 0xF0#8, 0xE0#8, 0xC0#8, 0x80#8, 0x00#8])
    ∧ ∀ (s : State) (j : Nat), s.fault = false → s.FrameLegal → s.regs.maskStep = 0#16 → j ≤ 8 →
      ∃ t : State, runCommands (List.replicate j .pmask) s = .next t ∧ t.fault = false
        ∧ t.regs.maskStep.toNat = j
        ∧ (∀ k, k < s.frameArea → t.readTc k = maskPixel (s.readTc k) (BitVec.ofNat 8 (0xFF <<< j &&& 0xFF)))
        ∧ (∀ k, k < s.frameArea → t.readTc k = clearLowPixel j (s.readTc k))
        ∧ (j = 8 → ∀ k, k < s.frameArea → t.readTc k = { r := 0#8, g := 0#8, b := 0#8 })

/-- 41_palette_quantizer.md R138 (the spec's decision D20): `PINDEX` writes to every `IDX[k]` the lowest palette position
equal to `TC[k]`; at the first pixel without one it faults `E_NOMATCH` with the pixel's address, the earlier elements written
and no later one; in both cases nothing else changes. `PAL_SIZE` above 256, which the rule rules out, is
`PindexStopsBeyondPalette`'s. -/
def Obligations.PindexFindsLowestMatch : Prop :=
  ∀ s : State,
    (¬ s.FrameLegal → exec .pindex s = .next { s with fault := true, err := 0x03#8, errInfo := 0x12000000#32 })
      ∧ (s.FrameLegal → s.palSize.toNat ≤ 256 →
          (∀ k, k < s.frameArea → ∃ m, m < s.palSize.toNat ∧ s.readPal m = s.readTc k) →
          ∃ t : State, exec .pindex s = .next t ∧ t = { s with pc := s.pc + 1#32, idx := t.idx }
            ∧ (∀ k, k < s.frameArea →
                (t.readIdx k).toNat < s.palSize.toNat ∧ s.readPal (t.readIdx k).toNat = s.readTc k
                  ∧ ∀ m, m < (t.readIdx k).toNat → s.readPal m ≠ s.readTc k)
            ∧ ∀ k, s.frameArea ≤ k → t.readIdx k = s.readIdx k)
      ∧ (∀ k0, s.FrameLegal → s.palSize.toNat ≤ 256 → k0 < s.frameArea →
          (∀ m, m < s.palSize.toNat → s.readPal m ≠ s.readTc k0) →
          (∀ k, k < k0 → ∃ m, m < s.palSize.toNat ∧ s.readPal m = s.readTc k) →
          ∃ t : State, exec .pindex s = .next t
            ∧ t = { s with fault := true, err := 0x08#8, errInfo := BitVec.ofNat 32 k0, idx := t.idx }
            ∧ (∀ k, k < k0 →
                (t.readIdx k).toNat < s.palSize.toNat ∧ s.readPal (t.readIdx k).toNat = s.readTc k
                  ∧ ∀ m, m < (t.readIdx k).toNat → s.readPal m ≠ s.readTc k)
            ∧ ∀ k, k0 ≤ k → t.readIdx k = s.readIdx k)

/-- After a `PBUILD` without overflow `PINDEX` finds every pixel; after one with overflow it faults `E_NOMATCH` exactly at
the pixel that caused the overflow, the first that brings the number of colours to `MAXSIZE + 1` (41_palette_quantizer.md
section 5; inferences the spec marks as its own). -/
def Obligations.PindexAfterPbuildMissesOnlyOnOverflow : Prop :=
  ∀ s t : State, s.fault = false → exec .pbuild s = .next t → t.fault = false →
    (t.ovf = false → ∃ u : State, exec .pindex t = .next u ∧ u.fault = false)
      ∧ (t.ovf = true → ∃ (u : State) (k : Nat), exec .pindex t = .next u ∧ u.fault = true ∧ u.err = 0x08#8
          ∧ u.errInfo = BitVec.ofNat 32 k ∧ k < s.frameArea
          ∧ (distinctColours (s.framePixels.take k)).length = s.regs.maxsize.toNat
          ∧ (distinctColours (s.framePixels.take (k + 1))).length = s.regs.maxsize.toNat + 1)

/-- `QUANT` on a legal frame always completes, after `j <= 8` retries, where `j` is the smallest number of masking steps at
which the frame has at most `MAXSIZE` colours; `TC` holds the frame masked `j` times, `PAL` its colours, and every pixel is
the palette entry its index names (41_palette_quantizer.md section 6; "`QUANT` always ends, after at most 8 retries" is an
inference the spec marks as its own). -/
def Obligations.QuantConverges : Prop :=
  ∀ s : State, s.FrameLegal → s.MaxsizeLegal →
    ∃ (t : State) (j : Nat), exec .quant s = .next t
      ∧ t = { s with
          pc := s.pc + 1#32, regs := { s.regs with maskStep := BitVec.ofNat 16 j }, ovf := false
          palSize := t.palSize, tc := t.tc, pal := t.pal, idx := t.idx }
      ∧ j ≤ 8
      ∧ (distinctColours (s.framePixels.map (clearLowPixel j))).length ≤ s.regs.maxsize.toNat
      ∧ (∀ i, i < j → s.regs.maxsize.toNat < (distinctColours (s.framePixels.map (clearLowPixel i))).length)
      ∧ (∀ k, k < s.frameArea → t.readTc k = clearLowPixel j (s.readTc k))
      ∧ (∀ k, s.frameArea ≤ k → t.readTc k = s.readTc k)
      ∧ t.palSize.toNat = (distinctColours (s.framePixels.map (clearLowPixel j))).length
      ∧ (∀ m, m < t.palSize.toNat →
          (distinctColours (s.framePixels.map (clearLowPixel j)))[m]? = some (t.readPal m))
      ∧ (∀ m, s.regs.maxsize.toNat ≤ m → t.readPal m = s.readPal m)
      ∧ (∀ k, k < s.frameArea → (t.readIdx k).toNat < t.palSize.toNat ∧ t.readPal (t.readIdx k).toNat = t.readTc k)
      ∧ ∀ k, s.frameArea ≤ k → t.readIdx k = s.readIdx k

/-- `PBUILD` and `PINDEX` are idempotent: a second run from the state the first left changes nothing but `PC`
(20_memory.md section 4; "`PBUILD` and `PINDEX` are idempotent" is an inference the spec marks as its own). -/
def Obligations.PbuildAndPindexAreIdempotent : Prop :=
  ∀ s t : State, s.Inv → s.fault = false →
    (exec .pbuild s = .next t → t.fault = false → exec .pbuild t = .next { t with pc := t.pc + 1#32 })
      ∧ (exec .pindex s = .next t → t.fault = false → exec .pindex t = .next { t with pc := t.pc + 1#32 })

/-! ### The code packer -/

/-- 43_code_packer.md R172, R173 (the spec's decision D16): `Emit` within its precondition completes; the code's bits,
lowest first, follow the bits held; whole bytes fill `BUF` and every full sub-block of 255 goes to `OUT` at once behind its
length byte; nothing but the packer's state changes. -/
def Obligations.EmitAppendsCodeBits : Prop :=
  ∀ (c wd : Nat) (s : State), 1 ≤ wd → wd ≤ 12 → c < 2 ^ wd → s.PackerOk →
    ∃ t : State, emit c wd s = .ok t ∧ Takes s t (lowBits wd c)
      ∧ t = { s with
          nbits := t.nbits, partialByte := t.partialByte, bufCnt := t.bufCnt, buf := t.buf, out := t.out }
      ∧ t.nbits.toNat = (s.nbits.toNat + wd) % 8
      ∧ t.bufCnt.toNat = (s.bufCnt.toNat + (s.nbits.toNat + wd) / 8) % 255

/-- 43_code_packer.md R173: `PushByte` writes the byte behind those buffered; the 255th sends the full sub-block to `OUT`
and empties `BUF`. -/
def Obligations.PushByteFlushesAt255 : Prop :=
  ∀ (b : Byte) (s : State),
    (s.bufCnt.toNat < 254 →
        ∃ t : State, pushByte b s = .ok t ∧ t = { s with bufCnt := s.bufCnt + 1#8, buf := t.buf }
          ∧ t.readBuf s.bufCnt.toNat = b ∧ ∀ a, a ≠ s.bufCnt.toNat → t.readBuf a = s.readBuf a)
      ∧ (s.bufCnt.toNat = 254 →
        ∃ t : State, pushByte b s = .ok t
          ∧ t = { s with bufCnt := 0#8, buf := t.buf, out := s.out ++ (0xFF#8 :: (s.bufBytes 254 ++ [b])) }
          ∧ t.readBuf 254 = b ∧ ∀ a, a ≠ 254 → t.readBuf a = s.readBuf a)

/-- The two operations that have a precondition stop outside it, in states no run reaches (log 6, log 7; the model's
choice where 43_code_packer.md sections 2 and 3 give no behaviour). -/
def Obligations.PackerStopsOutsideItsPreconditions : Prop :=
  ∀ (c wd : Nat) (b : Byte) (s : State),
    (¬ (1 ≤ wd ∧ wd ≤ 12 ∧ c < 2 ^ wd) → emit c wd s = .stopped (.codeTooWide c wd))
      ∧ (s.bufCnt.toNat = 255 → pushByte b s = .stopped (.outsideSpace .buf 255))

/-- 43_code_packer.md R176 (the spec's decision D15): `Close` completes the image data: the bits held, padded with zero bits
to a whole byte, go to `OUT` as the sub-blocks left and one terminator, with no empty data sub-block; the packer is empty
afterwards and nothing else changes. -/
def Obligations.CloseEndsImageData : Prop :=
  ∀ s : State, s.PackerOk →
    ∃ (t : State) (tail : List Byte), packClose s = .ok t
      ∧ t = { s with nbits := 0#3, partialByte := 0#8, bufCnt := 0#8, buf := t.buf, out := s.out ++ tail }
      ∧ ImageOfBits s.heldBits tail

/-! ### The LZW compressor -/

/-- 42_lzw_compressor.md R153, R152 (the spec's decisions D9, D12, D26): `LZWBEGIN` faults `E_STATE` with a frame open, then
`E_CFG` for a depth outside 1 .. 8; otherwise, the packer being empty as it is at every frame's start, it latches the depth,
clears the trie, and with `LEADING_CLEAR = 1` takes in the clear code in `depth + 1` bits; nothing reaches `OUT`. -/
def Obligations.LzwbeginOpensFrame : Prop :=
  ∀ s : State,
    (s.active = true → exec .lzwbegin s = .next { s with fault := true, err := 0x05#8, errInfo := 0x20000000#32 })
      ∧ (s.active = false → ¬ s.DepthLegal →
          exec .lzwbegin s = .next { s with fault := true, err := 0x03#8, errInfo := 0x20000000#32 })
      ∧ (s.active = false → s.DepthLegal → s.nbits = 0#3 → s.partialByte = 0#8 → s.bufCnt = 0#8 →
          ∃ t : State, exec .lzwbegin s = .next t
            ∧ t = { s with
                pc := s.pc + 1#32, active := true, cur := 0x1000#13
                lzwD := t.lzwD, codeWidth := t.codeWidth, nextCode := t.nextCode, trie := t.trie
                nbits := t.nbits, partialByte := t.partialByte, bufCnt := t.bufCnt, buf := t.buf }
            ∧ t.lzwD.toNat = s.regs.depth.toNat ∧ t.codeWidth.toNat = s.regs.depth.toNat + 1
            ∧ t.nextCode.toNat = 2 ^ s.regs.depth.toNat + 2
            ∧ (∀ (c : Nat) (v : Byte), t.readTrie c v = none)
            ∧ t.heldBits =
                (if s.params.leadingClear then lowBits (s.regs.depth.toNat + 1) (2 ^ s.regs.depth.toNat) else [])
            ∧ t.PackerOk)

/-- 42_lzw_compressor.md R154, R155 (the spec's decisions D2, D13): `LZWPIX` faults `E_STATE` with no frame open and
`E_PIXRANGE` for a pixel not below `2^LZW_D`, the command word in `ERRINFO` and nothing else changed. -/
def Obligations.LzwpixFaults : Prop :=
  ∀ (v : Byte) (s : State),
    (s.active = false →
        exec (.lzwpix v) s = .next { s with fault := true, err := 0x05#8, errInfo := encode (.lzwpix v) })
      ∧ (s.active = true → 2 ^ s.lzwD.toNat ≤ v.toNat →
        exec (.lzwpix v) s = .next { s with fault := true, err := 0x06#8, errInfo := encode (.lzwpix v) })

/-- 42_lzw_compressor.md section 3 (`PixStep`): the first pixel of a frame, and a pixel that extends the match, move `CUR`
and nothing else; nothing is emitted. -/
def Obligations.LzwpixFirstPixelAndMatch : Prop :=
  ∀ (v : Byte) (s : State), s.active = true → v.toNat < 2 ^ s.lzwD.toNat →
    (s.cur = 0x1000#13 → exec (.lzwpix v) s = .next { s with pc := s.pc + 1#32, cur := v.zeroExtend 13 })
      ∧ (∀ c : Code, s.cur.toNat < 4096 → s.readTrie s.cur.toNat v = some c →
          exec (.lzwpix v) s = .next { s with pc := s.pc + 1#32, cur := c.zeroExtend 13 })

/-- 42_lzw_compressor.md section 3 (`PixStep`; the spec's decisions D10, D11): a miss with the table not full emits the
current code in the current width, then widens exactly when the new code is `2^CODE_WIDTH`, attaches the new code to the
current node along the pixel, and goes on from the pixel's base code. -/
def Obligations.LzwpixMissInsertsCode : Prop :=
  ∀ (v : Byte) (s : State),
    s.active = true → v.toNat < 2 ^ s.lzwD.toNat → s.cur.toNat < 4096 → s.readTrie s.cur.toNat v = none →
    s.nextCode.toNat < 4096 → 1 ≤ s.codeWidth.toNat → s.codeWidth.toNat ≤ 12 →
    s.cur.toNat < 2 ^ s.codeWidth.toNat → s.PackerOk →
      ∃ t : State, exec (.lzwpix v) s = .next t
        ∧ Takes s t (lowBits s.codeWidth.toNat s.cur.toNat)
        ∧ t = { s with
            pc := s.pc + 1#32, cur := v.zeroExtend 13, codeWidth := t.codeWidth, nextCode := s.nextCode + 1#13
            trie := t.trie, nbits := t.nbits, partialByte := t.partialByte, bufCnt := t.bufCnt, buf := t.buf
            out := t.out }
        ∧ t.codeWidth.toNat =
            (if s.nextCode.toNat = 2 ^ s.codeWidth.toNat then s.codeWidth.toNat + 1 else s.codeWidth.toNat)
        ∧ (t.readTrie s.cur.toNat v).map BitVec.toNat = some s.nextCode.toNat
        ∧ ∀ (c : Nat) (u : Byte), ¬ (c = s.cur.toNat ∧ u = v) → t.readTrie c u = s.readTrie c u

/-- 42_lzw_compressor.md section 3 (`PixStep`) and section 6 (the spec's decisions D10, D11): a miss with the table full
emits the current code and then the clear code in the current width, attaches nothing, and leaves trie, `NEXT_CODE` and
`CODE_WIDTH` as after `LZWBEGIN`, `CUR` at the base code of the pixel that missed; no fault, no flag. -/
def Obligations.LzwpixMissOnFullTableRebuilds : Prop :=
  ∀ (v : Byte) (s : State),
    s.active = true → v.toNat < 2 ^ s.lzwD.toNat → s.cur.toNat < 4096 → s.readTrie s.cur.toNat v = none →
    s.nextCode.toNat = 4096 → 1 ≤ s.codeWidth.toNat → s.codeWidth.toNat ≤ 12 →
    s.cur.toNat < 2 ^ s.codeWidth.toNat → s.lzwD.toNat ≤ 8 → s.lzwD.toNat < s.codeWidth.toNat → s.PackerOk →
      ∃ t : State, exec (.lzwpix v) s = .next t
        ∧ Takes s t (lowBits s.codeWidth.toNat s.cur.toNat ++ lowBits s.codeWidth.toNat (2 ^ s.lzwD.toNat))
        ∧ t = { s with
            pc := s.pc + 1#32, cur := v.zeroExtend 13, codeWidth := t.codeWidth, nextCode := t.nextCode
            trie := t.trie, nbits := t.nbits, partialByte := t.partialByte, bufCnt := t.bufCnt, buf := t.buf
            out := t.out }
        ∧ t.codeWidth.toNat = s.lzwD.toNat + 1 ∧ t.nextCode.toNat = 2 ^ s.lzwD.toNat + 2
        ∧ ∀ (c : Nat) (u : Byte), t.readTrie c u = none

/-- 42_lzw_compressor.md R157 (the spec's decisions D11, D14, D35): `LZWEND` faults `E_STATE` with no frame open and
`E_EMPTY` with no pixel; otherwise it emits the last code and the stop code in one width and closes the image data; the
frame is over, the packer empty, `LZW_D`, `CODE_WIDTH`, `NEXT_CODE` keep their values. Nothing is said of `TRIE`, which is
unspecified afterwards; the count of free values is the model's own (log 3). -/
def Obligations.LzwendClosesFrame : Prop :=
  ∀ s : State,
    (s.active = false → exec .lzwend s = .next { s with fault := true, err := 0x05#8, errInfo := 0x22000000#32 })
      ∧ (s.active = true → s.cur = 0x1000#13 →
          exec .lzwend s = .next { s with fault := true, err := 0x07#8, errInfo := 0x22000000#32 })
      ∧ (s.active = true → s.cur.toNat < 2 ^ s.codeWidth.toNat → 1 ≤ s.codeWidth.toNat → s.codeWidth.toNat ≤ 12 →
          2 ^ s.lzwD.toNat + 1 < 2 ^ s.codeWidth.toNat → s.PackerOk →
          ∃ (t : State) (tail : List Byte), exec .lzwend s = .next t
            ∧ t = { s with
                pc := s.pc + 1#32, active := false, cur := 0x1000#13, nbits := 0#3, partialByte := 0#8, bufCnt := 0#8
                buf := t.buf, trie := t.trie, freeCtr := t.freeCtr, out := s.out ++ tail }
            ∧ ImageOfBits
                (s.heldBits ++ lowBits s.codeWidth.toNat s.cur.toNat
                  ++ lowBits s.codeWidth.toNat (2 ^ s.lzwD.toNat + 1)) tail)

/-- 42_lzw_compressor.md section 5 and 60_exceptions.md section 3 (the spec's decisions D14, D37): the checks of `LZWENC`
before any state change, in their order: an open frame, the depth, the frame, the region. -/
def Obligations.LzwencChecksInOrder : Prop :=
  ∀ s : State,
    (s.active = true → exec .lzwenc s = .next { s with fault := true, err := 0x05#8, errInfo := 0x23000000#32 })
      ∧ (s.active = false → ¬ s.DepthLegal →
          exec .lzwenc s = .next { s with fault := true, err := 0x03#8, errInfo := 0x23000000#32 })
      ∧ (s.active = false → s.DepthLegal → ¬ s.FrameLegal →
          exec .lzwenc s = .next { s with fault := true, err := 0x03#8, errInfo := 0x23000000#32 })
      ∧ (s.active = false → s.DepthLegal → s.FrameLegal → ¬ s.RegionLegal →
          exec .lzwenc s = .next { s with fault := true, err := 0x04#8, errInfo := 0x23000000#32 })

/-- `LZWENC` over a legal region whose pixels are all below `2^DEPTH` completes, and what it appends to `OUT` is the image
data of the LZW codes of the region's pixels: codes laid end to end in their widths, lowest bit first, zero padding, full
sub-blocks of 255, at most one shorter, one terminator. The codes are those of the trie-free `frameCodes`, in which a code
stands for a pixel string (42_lzw_compressor.md sections 1, 3, 5; 30_encoding.md Part B; 43_code_packer.md). -/
def Obligations.LzwencOutputIsFramedLzwStream : Prop :=
  ∀ s : State, s.active = false → s.DepthLegal → s.FrameLegal → s.RegionLegal →
    s.nbits = 0#3 → s.partialByte = 0#8 → s.bufCnt = 0#8 →
    (∀ v ∈ s.regionPixels, v.toNat < 2 ^ s.regs.depth.toNat) →
      ∃ (t : State) (tail : List Byte), exec .lzwenc s = .next t
        ∧ t = { s with
            pc := s.pc + 1#32, active := false, cur := 0x1000#13, nbits := 0#3, partialByte := 0#8, bufCnt := 0#8
            lzwD := t.lzwD, codeWidth := t.codeWidth, nextCode := t.nextCode, trie := t.trie, buf := t.buf
            freeCtr := t.freeCtr, out := s.out ++ tail }
        ∧ t.lzwD.toNat = s.regs.depth.toNat
        ∧ ImageOfBits (bitsOfCodes (frameCodes s.params.leadingClear s.regs.depth.toNat s.regionPixels)) tail

/-- The length of what `LZWENC` appends: with codes of total width `T`, `B = ceil(T / 8)` data bytes, `ceil(B / 255)` length
bytes and the terminator (43_code_packer.md section 5; an inference the spec marks as its own). -/
def Obligations.LzwencOutputLength : Prop :=
  ∀ s t : State, s.active = false → s.DepthLegal → s.FrameLegal → s.RegionLegal →
    s.nbits = 0#3 → s.partialByte = 0#8 → s.bufCnt = 0#8 →
    (∀ v ∈ s.regionPixels, v.toNat < 2 ^ s.regs.depth.toNat) → exec .lzwenc s = .next t →
      ∃ width bytes : Nat,
        width = ((frameCodes s.params.leadingClear s.regs.depth.toNat s.regionPixels).map Prod.snd).sum
          ∧ bytes = (width + 7) / 8 ∧ 1 ≤ bytes
          ∧ t.out.length = s.out.length + bytes + (bytes + 254) / 255 + 1

/-- `LZWENC` at the first pixel not below `2^DEPTH` faults `E_PIXRANGE` with that pixel's element address, the frame still
open, and the LZW and packer state as after the pixels before it were streamed (42_lzw_compressor.md section 5;
60_exceptions.md section 3). -/
def Obligations.LzwencPixelRangeFault : Prop :=
  ∀ (s : State) (before : List Nat) (a : Nat) (after : List Nat), s.active = false → s.DepthLegal → s.FrameLegal →
    s.RegionLegal → s.fault = false → s.bufCnt.toNat ≤ 254 → s.regionAddrs = before ++ a :: after →
    (∀ b ∈ before, (s.readIdx b).toNat < 2 ^ s.regs.depth.toNat) → 2 ^ s.regs.depth.toNat ≤ (s.readIdx a).toNat →
      ∃ t u : State, exec .lzwenc s = .next t
        ∧ runCommands (.lzwbegin :: before.map fun b => .lzwpix (s.readIdx b)) s = .next u ∧ u.fault = false
        ∧ t = { u with pc := s.pc, fault := true, err := 0x06#8, errInfo := BitVec.ofNat 32 a } ∧ t.active = true

/-- `LZWENC` is the command sequence `LZWBEGIN`, one `LZWPIX` per pixel of the region in row-major order, `LZWEND`, in
everything but `PC` and the `ERRINFO` of a pixel fault (42_lzw_compressor.md section 5; "`LZWENC` is equivalent to the command
sequence" is an inference the spec marks as its own). -/
def Obligations.LzwencEqualsStreamedSequence : Prop :=
  ∀ s : State, s.fault = false → s.active = false → s.DepthLegal → s.FrameLegal → s.RegionLegal → s.bufCnt.toNat ≤ 254 →
    ∃ t u : State, exec .lzwenc s = .next t
      ∧ runCommands (.lzwbegin :: s.regionPixels.map .lzwpix ++ [.lzwend]) s = .next u
      ∧ t = { u with pc := t.pc, errInfo := t.errInfo }
      ∧ (t.fault = false → t.errInfo = u.errInfo ∧ t.pc = s.pc + 1#32
          ∧ u.pc = s.pc + BitVec.ofNat 32 (s.regionPixels.length + 2))

/-- The output of a frame is a function of the depth, `LEADING_CLEAR` and the pixel sequence: two blocks that agree on
these append the same bytes, wherever their regions lie and whatever else their states hold (42_lzw_compressor.md section 6:
"encoding the same index frame twice with the same depth yields byte-identical output"). -/
def Obligations.LzwencOutputIsDeterminedByPixels : Prop :=
  ∀ s s' : State, (∀ z ∈ [s, s'], z.active = false ∧ z.DepthLegal ∧ z.FrameLegal ∧ z.RegionLegal
      ∧ z.nbits = 0#3 ∧ z.partialByte = 0#8 ∧ z.bufCnt = 0#8
      ∧ ∀ v ∈ z.regionPixels, v.toNat < 2 ^ z.regs.depth.toNat) →
    s.params.leadingClear = s'.params.leadingClear → s.regs.depth = s'.regs.depth → s.regionPixels = s'.regionPixels →
      ∃ (t t' : State) (tail : List Byte), exec .lzwenc s = .next t ∧ exec .lzwenc s' = .next t'
        ∧ t.out = s.out ++ tail ∧ t'.out = s'.out ++ tail

/-! ### Faults -/

/-- Taking a fault writes `FAULT`, `ERR` with the fault's code and `ERRINFO`, and nothing else: `PC` stays
(60_exceptions.md R184, and the codes of the table in section 2; the spec's decision D22). -/
def Obligations.FaultEntryWritesFaultRecord : Prop :=
  ∀ (s : State) (info : Word),
    (∀ e : ErrCode, s.takeFault e info = { s with fault := true, err := (s.takeFault e info).err, errInfo := info })
      ∧ [ErrCode.illCmd, .illReg, .cfg, .region, .state, .pixRange, .empty, .noMatch, .maskLim].map
          (fun e => (s.takeFault e info).err.toNat) = [1, 2, 3, 4, 5, 6, 7, 8, 9]
      ∧ ∀ (e : ErrCode) (t : State), finish (.raised e info t) = .next (t.takeFault e info)

/-- Faults are precise: a command that faults leaves `PC`, and all else but the fault record, as it was, with the command
word in `ERRINFO`; the exceptions are `E_NOMATCH` of `PINDEX`, which has written some of `IDX`, and `E_PIXRANGE` of `LZWENC`,
which leaves its frame open (60_exceptions.md section 3; "Faults are precise at the level of the pseudocode" is an inference
the spec marks as its own). -/
def Obligations.FaultsArePrecise : Prop :=
  ∀ (i : Instr) (s t : State), s.fault = false → exec i s = .next t → t.fault = true →
    (t = { s with fault := true, err := t.err, errInfo := encode i } ∧ 1 ≤ t.err.toNat ∧ t.err.toNat ≤ 9)
      ∨ (i = .pindex ∧ t = { s with fault := true, err := 0x08#8, errInfo := t.errInfo, idx := t.idx })
      ∨ (i = .lzwenc ∧ t.err = 0x06#8 ∧ t.active = true ∧ t.pc = s.pc ∧ s.out <+: t.out
          ∧ SameButLzw { s with fault := true, err := t.err, errInfo := t.errInfo } t)

/-- `QUANT` raises only `E_CFG`, and that before any state change (60_exceptions.md section 2; 41_palette_quantizer.md
section 6). -/
def Obligations.QuantRaisesOnlyConfigurationFaults : Prop :=
  ∀ s t : State, s.fault = false → exec .quant s = .next t → t.fault = true →
    t = { s with fault := true, err := 0x03#8, errInfo := 0x13000000#32 } ∧ ¬ (s.FrameLegal ∧ s.MaxsizeLegal)

/-- 10_state.md R31 (the spec's decision D22): `STATUS.FAULT` is sticky. Once 1 it stays 1 through every step, every command
and every move of the host but reset. -/
def Obligations.FaultIsStickyUntilReset : Prop :=
  ∀ s t : State, s.fault = true →
    (step s = .next t → t.fault = true)
      ∧ (∀ i, exec i s = .next t → t.fault = true)
      ∧ (∀ m, hostMove m s = .next t → t.fault = true ∨ ∃ c, m = .reset c)

/-! ### Frames over all commands -/

/-- `OUT` is append-only: no command, and no move of the host but reset, removes or changes a byte of it (10_state.md
section 8). -/
def Obligations.OutIsAppendOnly : Prop :=
  ∀ s t : State,
    (∀ i, exec i s = .next t → s.out <+: t.out)
      ∧ (step s = .next t → s.out <+: t.out)
      ∧ (∀ m, hostMove m s = .next t → t.out = s.out ∨ ∃ c, m = .reset c)

/-- 10_state.md R20 and the table of section 2: the configuration registers are written by `SET`, and `MASK_STEP` besides by
`PMASK` and `QUANT`; by nothing else, and by no move of the host but reset. -/
def Obligations.ConfigRegistersWrittenOnlyByNamedCommands : Prop :=
  ∀ s t : State,
    (∀ i, exec i s = .next t →
        t.regs = s.regs ∨ (∃ ra imm, i = .set ra imm)
          ∨ ((i = .pmask ∨ i = .quant) ∧ t.regs = { s.regs with maskStep := t.regs.maskStep }))
      ∧ (∀ m, hostMove m s = .next t → t.regs = s.regs ∨ ∃ c, m = .reset c)

/-- 10_state.md section 4: `OVF` is written by `PBUILD` and `QUANT` only, `ACTIVE` by `LZWBEGIN`, `LZWEND` and `LZWENC` only,
`FAULT` is never cleared by a command, and a command that completes leaves `ERR` and `ERRINFO` as they were. -/
def Obligations.FlagsWrittenOnlyByNamedCommands : Prop :=
  ∀ (i : Instr) (s t : State), exec i s = .next t →
    (t.ovf = s.ovf ∨ i = .pbuild ∨ i = .quant)
      ∧ (t.active = s.active ∨ i = .lzwbegin ∨ i = .lzwend ∨ i = .lzwenc)
      ∧ (s.fault = true → t.fault = true)
      ∧ (t.fault = false → t.err = s.err ∧ t.errInfo = s.errInfo)

/-- The palette commands touch nothing of the LZW unit, the packer, `OUT` and the queue, and the LZW commands touch no
configuration register, no `TC`, `PAL`, `IDX`, `PAL_SIZE`, `OVF` (20_memory.md section 4; the spec's decision D33); `PINDEX` never writes
`TC` or `PAL`, `PBUILD` never writes `TC` or `IDX`, `PMASK` never writes `PAL` or `IDX`. -/
def Obligations.UnitsLeaveEachOtherAlone : Prop :=
  ∀ (i : Instr) (s t : State), exec i s = .next t →
    (i ∈ [Instr.pbuild, .pmask, .pindex, .quant] →
        SameButPalette { s with pc := t.pc, fault := t.fault, err := t.err, errInfo := t.errInfo } t)
      ∧ (i ∈ [Instr.lzwbegin, .lzwend, .lzwenc] ∨ (∃ v, i = .lzwpix v) →
          SameButLzw { s with pc := t.pc, fault := t.fault, err := t.err, errInfo := t.errInfo } t)
      ∧ (i = .pindex → t.tc = s.tc ∧ t.pal = s.pal) ∧ (i = .pbuild → t.tc = s.tc ∧ t.idx = s.idx)
      ∧ (i = .pmask → t.pal = s.pal ∧ t.idx = s.idx)

/-! ### The whole machine -/

/-- The state after reset has every register, the queue and the sink at the values of 10_state.md R51, whatever the memories
hold (the spec's decisions D24, D25); the machine's own reset state is such a state. -/
def Obligations.ResetStateIsAsSpecified : Prop :=
  (∀ (p : Params) (m : Contents) (n : Nat) (s : State), s = State.launch p m n →
      (∀ r, s.regs.get r = 0#16) ∧ s.pc = 0#32 ∧ s.statusWord = 0#16 ∧ s.err = 0#8 ∧ s.errInfo = 0#32
        ∧ s.palSize = 0#9 ∧ s.lzwD = 0#4 ∧ s.codeWidth = 0#4 ∧ s.nextCode = 0#13 ∧ s.cur = 0x1000#13
        ∧ s.nbits = 0#3 ∧ s.partialByte = 0#8 ∧ s.bufCnt = 0#8 ∧ s.cmdq = [] ∧ s.out = [])
    ∧ ∃ (p : Params) (m : Contents) (n : Nat), Sys2Proof.core.reset = State.launch p m n

/-- The host's `RESET` at any time, in mid-frame and after a fault, puts registers, queue and sink into the state after
reset, keeps the parameters, and leaves a quiescent block without fault (70_reset_and_hazards.md section 1). -/
def Obligations.HostResetRestoresResetState : Prop :=
  ∀ (s : State) (c : Contents),
    ∃ (t : State) (m : Contents), hostMove (.reset c) s = .next t ∧ t = State.launch s.params m s.freeCtr
      ∧ t.quiescent = true ∧ t.fault = false ∧ t.MemOk

/-- The invariant holds after reset, the machine's own and every other. -/
def Obligations.InvariantHoldsAfterReset : Prop :=
  State.Inv State.reset ∧ ∀ (s t : State) (c : Contents), hostMove (.reset c) s = .next t → t.Inv

/-- From every state of the invariant the block's step neither stops nor refuses, and its next state satisfies the
invariant: memories canonical and inside their spaces, the fault record consistent, the packer in order (43_code_packer.md
section 1), and for an open frame the relations of 42_lzw_compressor.md section 6 between width, next code, current node
and trie (an inference the spec marks as its own, with a proof sketch). -/
def Obligations.StepKeepsInvariantAndNeverStops : Prop :=
  ∀ s : State, s.Inv → ∃ t : State, step s = .next t ∧ t.Inv

/-- Every move the host can make keeps the invariant (70_reset_and_hazards.md section 3). -/
def Obligations.HostMovesKeepInvariant : Prop :=
  ∀ (m : HostMove) (s t : State), s.Inv → hostMove m s = .next t → t.Inv

/-- The parameters of an instance never change: no step, no command and no move of the host, reset included, writes them
(10_state.md section 12; that the model carries them in its state is its own choice, log 1). -/
def Obligations.ParametersNeverChange : Prop :=
  ∀ s t : State,
    (step s = .next t → t.params = s.params) ∧ (∀ i, exec i s = .next t → t.params = s.params)
      ∧ ∀ m, hostMove m s = .next t → t.params = s.params

/-! ### The host's view -/

/-- `STATUS` as the host reads it: bit 0 `FAULT`, bit 1 `OVF`, bit 2 `ACTIVE`, bits 15 to 3 zero (10_state.md section 4). -/
def Obligations.StatusWordLayout : Prop :=
  ∀ s : State, s.statusWord.toNat = s.fault.toNat + 2 * s.ovf.toNat + 4 * s.active.toNat

/-- The host reads registers by number, zero-extended, and only while the block is quiescent; the numbers that name nothing
are not read; an element write of `TC`, `PAL` or `IDX` reaches exactly one element and is refused while the block is not
quiescent (70_reset_and_hazards.md section 3; that a read gives nothing where the host has no such move, and that a write is
refused there, is the model's form, log 10). -/
def Obligations.HostAccessByNumberWhileQuiescent : Prop :=
  ∀ s : State,
    (s.quiescent = true →
        s.hostReadPort 0x00#8 = some (s.regs.frameW.zeroExtend 32) ∧ s.hostReadPort 0x01#8 = some (s.regs.frameH.zeroExtend 32)
          ∧ s.hostReadPort 0x02#8 = some (s.regs.regX.zeroExtend 32) ∧ s.hostReadPort 0x03#8 = some (s.regs.regY.zeroExtend 32)
          ∧ s.hostReadPort 0x04#8 = some (s.regs.regW.zeroExtend 32) ∧ s.hostReadPort 0x05#8 = some (s.regs.regH.zeroExtend 32)
          ∧ s.hostReadPort 0x06#8 = some (s.regs.depth.zeroExtend 32)
          ∧ s.hostReadPort 0x07#8 = some (s.regs.maxsize.zeroExtend 32)
          ∧ s.hostReadPort 0x08#8 = some (s.regs.maskStep.zeroExtend 32)
          ∧ s.hostReadPort 0x10#8 = some (s.statusWord.zeroExtend 32)
          ∧ s.hostReadPort 0x11#8 = some (s.err.zeroExtend 32) ∧ s.hostReadPort 0x12#8 = some s.errInfo
          ∧ s.hostReadPort 0x13#8 = some s.pc ∧ s.hostReadPort 0x14#8 = some (s.palSize.zeroExtend 32)
          ∧ s.hostReadPort 0x18#8 = some (s.lzwD.zeroExtend 32) ∧ s.hostReadPort 0x19#8 = some (s.codeWidth.zeroExtend 32)
          ∧ s.hostReadPort 0x1A#8 = some (s.nextCode.zeroExtend 32) ∧ s.hostReadPort 0x1B#8 = some (s.cur.zeroExtend 32)
          ∧ s.hostReadPort 0x1C#8 = some (s.nbits.zeroExtend 32)
          ∧ s.hostReadPort 0x1D#8 = some (s.partialByte.zeroExtend 32)
          ∧ s.hostReadPort 0x1E#8 = some (s.bufCnt.zeroExtend 32))
      ∧ (∀ port : Byte, (9 ≤ port.toNat ∧ port.toNat ≤ 15) ∨ (0x15 ≤ port.toNat ∧ port.toNat ≤ 0x17) ∨ 0x1F ≤ port.toNat →
          s.hostReadPort port = none)
      ∧ (s.quiescent = false → ∀ (port : Byte) (a : Nat) (p : Pixel) (b : Byte),
          s.hostReadPort port = none ∧ hostMove (.writeTc a p) s = .refused .hostNotQuiescent
            ∧ hostMove (.writePal a p) s = .refused .hostNotQuiescent
            ∧ hostMove (.writeIdx a b) s = .refused .hostNotQuiescent)
      ∧ (s.quiescent = true → ∀ (a : Nat) (p : Pixel), a < s.params.frameCap →
          ∃ t : State, hostMove (.writeTc a p) s = .next t ∧ t = { s with tc := t.tc } ∧ t.readTc a = p
            ∧ ∀ b, b ≠ a → t.readTc b = s.readTc b)
      ∧ (s.quiescent = true → ∀ (a : Nat) (p : Pixel), a < 256 →
          ∃ t : State, hostMove (.writePal a p) s = .next t ∧ t = { s with pal := t.pal } ∧ t.readPal a = p
            ∧ ∀ b, b ≠ a → t.readPal b = s.readPal b)
      ∧ (s.quiescent = true → ∀ (a : Nat) (v : Byte), a < s.params.frameCap →
          ∃ t : State, hostMove (.writeIdx a v) s = .next t ∧ t = { s with idx := t.idx } ∧ t.readIdx a = v
            ∧ ∀ b, b ≠ a → t.readIdx b = s.readIdx b)

/-- The host reads elements of `TC`, `PAL`, `IDX` and all of `OUT` while the block is quiescent
(70_reset_and_hazards.md section 3; 40_control_commands.md section 4); that a read gives nothing while it is not is the
model's form of "the host has no such move" (log 10). -/
def Obligations.HostReadsElementsAndOutputWhileQuiescent : Prop :=
  ∀ (s : State) (a : Nat),
    (s.quiescent = true →
        (a < s.params.frameCap → s.hostReadTc a = some (s.readTc a) ∧ s.hostReadIdx a = some (s.readIdx a))
          ∧ (a < 256 → s.hostReadPal a = some (s.readPal a)) ∧ s.hostReadOut = some s.out)
      ∧ (s.quiescent = false →
        s.hostReadTc a = none ∧ s.hostReadPal a = none ∧ s.hostReadIdx a = none ∧ s.hostReadOut = none)

/-- THE MODEL'S CHOICE, not a rule's: at an element address its space does not have (20_memory.md section 1 gives the
ranges) a host read gives nothing (log 15) and a host write by a quiescent block's host stops the model (log 6). -/
def Obligations.HostAccessOutsideSpaceHasNoEffect : Prop :=
  ∀ (s : State) (a : Nat),
    (s.params.frameCap ≤ a → s.hostReadTc a = none ∧ s.hostReadIdx a = none) ∧ (256 ≤ a → s.hostReadPal a = none)
      ∧ (s.quiescent = true → ∀ (p : Pixel) (b : Byte),
          (s.params.frameCap ≤ a → hostMove (.writeTc a p) s = .fault (.outsideSpace .tc a)
              ∧ hostMove (.writeIdx a b) s = .fault (.outsideSpace .idx a))
            ∧ (256 ≤ a → hostMove (.writePal a p) s = .fault (.outsideSpace .pal a)))

/-- The host appends a word at the tail of `CMDQ` at any time, quiescent or not, and nothing else changes
(70_reset_and_hazards.md section 3; 10_state.md section 8). -/
def Obligations.HostAppendsAtTailOfQueue : Prop :=
  ∀ (s : State) (w : Word), hostMove (.append w) s = .next { s with cmdq := s.cmdq ++ [w] }

/-- An appended word waits for all earlier ones: while a word is queued, or after a fault, a step does the same with the word
appended as without it, and leaves the word at the tail (70_reset_and_hazards.md section 3; 10_state.md sections 3, 8). -/
def Obligations.AppendedWordWaitsForEarlierWords : Prop :=
  ∀ (s t u : State) (w : Word), (s.cmdq ≠ [] ∨ s.fault = true) → step s = .next t → hostMove (.append w) s = .next u →
    step u = .next { t with cmdq := t.cmdq ++ [w] }

/-! ### The model's choices -/

/-- THE MODEL'S CHOICE, not a rule's: `PINDEX` with `PAL_SIZE > 256`, which no run reaches, stops the model at the first
address `PAL` does not have (log 6, DEDUCED from 20_memory.md section 3). -/
def Obligations.PindexStopsBeyondPalette : Prop :=
  ∀ s : State, s.FrameLegal → 256 < s.palSize.toNat → exec .pindex s = .fault (.outsideSpace .pal 256)

/-- THE MODEL'S CHOICE: the machine's own reset state is the reset state of the default instance, the parameters those of
00_scope.md section 4 carried in the state (log 1), the model's count of free values 0 (log 3). -/
def Obligations.OwnResetStateIsDefaultInstance : Prop :=
  ∃ m : Contents, Sys2Proof.core.reset = State.launch { frameCap := 65536, leadingClear := true } m 0
end

