-- ==== Sys2Proof/Laws/Decode.lean ====
section
/-! SUPPORT. The fields of a composed word (30_encoding.md R90), and a word from its fields. -/

namespace Sys2Proof

section
variable (opc ra : Byte) (imm : Half)

@[simp] theorem opcField_wordOf : opcField (wordOf opc ra imm) = opc := by
  unfold opcField wordOf
  apply BitVec.eq_of_getLsbD_eq
  intro i hi
  simp only [BitVec.getLsbD_extractLsb', BitVec.getLsbD_append]
  simp only [hi, decide_true, Bool.true_and]
  split_ifs <;> first | omega | (congr 1; omega)

@[simp] theorem raField_wordOf : raField (wordOf opc ra imm) = ra := by
  unfold raField wordOf
  apply BitVec.eq_of_getLsbD_eq
  intro i hi
  simp only [BitVec.getLsbD_extractLsb', BitVec.getLsbD_append]
  simp only [hi, decide_true, Bool.true_and]
  split_ifs <;> first | omega | (congr 1; omega)

@[simp] theorem immField_wordOf : immField (wordOf opc ra imm) = imm := by
  unfold immField wordOf
  apply BitVec.eq_of_getLsbD_eq
  intro i hi
  simp only [BitVec.getLsbD_extractLsb', BitVec.getLsbD_append]
  simp only [hi, decide_true, Bool.true_and]
  split_ifs <;> first | omega | (congr 1; omega)

end

@[simp] theorem imm8Field_wordOf (opc ra hi lo : Byte) : imm8Field (wordOf opc ra (hi ++ lo)) = lo := by
  unfold imm8Field wordOf
  apply BitVec.eq_of_getLsbD_eq
  intro i hi
  simp only [BitVec.getLsbD_extractLsb', BitVec.getLsbD_append]
  simp only [hi, decide_true, Bool.true_and]
  split_ifs <;> first | omega | (congr 1; omega)

@[simp] theorem immHighField_wordOf (opc ra hi lo : Byte) : immHighField (wordOf opc ra (hi ++ lo)) = hi := by
  unfold immHighField wordOf
  apply BitVec.eq_of_getLsbD_eq
  intro i hi
  simp only [BitVec.getLsbD_extractLsb', BitVec.getLsbD_append]
  simp only [hi, decide_true, Bool.true_and]
  split_ifs <;> first | omega | (congr 1; omega)

/-- A word is its three fields. -/
theorem wordOf_fields (w : Word) : wordOf (opcField w) (raField w) (immField w) = w := by
  unfold wordOf opcField raField immField
  apply BitVec.eq_of_getLsbD_eq
  intro i hi
  simp only [BitVec.getLsbD_append, BitVec.getLsbD_extractLsb']
  split_ifs with h1 h2
  · simp [h1]
  · simp only [show decide (i - 16 < 8) = true from decide_eq_true (by omega), Bool.true_and]
    congr 1
    omega
  · simp only [show decide (i - 16 - 8 < 8) = true from decide_eq_true (by omega), Bool.true_and]
    congr 1
    omega

/-- The immediate's two bytes. -/
theorem immHigh_append_imm8 (w : Word) : immHighField w ++ imm8Field w = immField w := by
  unfold immHighField imm8Field immField
  apply BitVec.eq_of_getLsbD_eq
  intro i hi
  simp only [BitVec.getLsbD_append, BitVec.getLsbD_extractLsb']
  split_ifs with h1
  · simp [h1, hi]
  · simp only [show decide (i - 8 < 8) = true from decide_eq_true (by omega), hi, decide_true, Bool.true_and]
    congr 1
    omega

end Sys2Proof
end

