-- ==== Sys2Proof/Laws/HostPort.lean ====
section
/-! SUPPORT. What a host access can do, said once (70_reset_and_hazards.md R207, R208). -/

namespace Sys2Proof.Machine

@[simp] theorem State.hostReadElement_eq_some {α : Type} {s : State} {size a : Nat} {v x : α} :
    s.hostReadElement size a v = some x ↔ (s.quiescent = true ∧ a < size) ∧ v = x := by
  unfold State.hostReadElement
  split <;> simp_all

@[simp] theorem State.hostReadElement_eq_none {α : Type} {s : State} {size a : Nat} {v : α} :
    s.hostReadElement size a v = none ↔ s.quiescent = false ∨ size ≤ a := by
  unfold State.hostReadElement
  by_cases h : s.quiescent = true <;> simp [h]

/-- A host write answers a next state exactly while quiescent and inside the space, and then the one it was given. -/
theorem hostWrite_eq_next {sp : Space} {size a : Nat} {s s' t : State} :
    hostWrite sp size a s s' = .next t ↔ (s.quiescent = true ∧ a < size) ∧ s' = t := by
  unfold hostWrite
  by_cases h : s.quiescent = true <;> by_cases h' : a < size <;> simp [h, h']

theorem hostWrite_inside {sp : Space} {size a : Nat} {s s' : State} (hq : s.quiescent = true) (ha : a < size) :
    hostWrite sp size a s s' = .next s' := hostWrite_eq_next.2 ⟨⟨hq, ha⟩, rfl⟩

theorem hostWrite_outside {sp : Space} {size a : Nat} {s s' : State} (hq : s.quiescent = true) (ha : size ≤ a) :
    hostWrite sp size a s s' = .fault (.outsideSpace sp a) := by
  simp [hostWrite, hq, Nat.not_lt.2 ha]

theorem hostWrite_refused {sp : Space} {size a : Nat} {s s' : State} (hq : s.quiescent = false) :
    hostWrite sp size a s s' = .refused .hostNotQuiescent := by
  simp [hostWrite, hq]

/-- The port numbers 0 to 8 are the indexes of the configuration registers. -/
theorem State.portValue_cfgReg {s : State} {port : Byte} {r : CfgReg} (h : cfgRegOf port = some r) :
    s.portValue port = some ((s.regs.get r).zeroExtend 32) := by
  simp only [State.portValue, h]

theorem State.hostReadPort_quiescent {s : State} (h : s.quiescent = true) (port : Byte) :
    s.hostReadPort port = s.portValue port := if_pos h

end Sys2Proof.Machine
end

