-- ==== Sys2Proof/Laws/State.lean ====
section
/-! SUPPORT. One lemma per field and update of State, each true by unfolding, so that no later proof unfolds an update. -/

namespace Sys2Proof.Machine

section
variable (s : State) (a : Nat) (p : Pixel)
@[simp] theorem State.writeTc_params : (s.writeTc a p).params = s.params := rfl
@[simp] theorem State.writeTc_regs : (s.writeTc a p).regs = s.regs := rfl
@[simp] theorem State.writeTc_pc : (s.writeTc a p).pc = s.pc := rfl
@[simp] theorem State.writeTc_fault : (s.writeTc a p).fault = s.fault := rfl
@[simp] theorem State.writeTc_ovf : (s.writeTc a p).ovf = s.ovf := rfl
@[simp] theorem State.writeTc_active : (s.writeTc a p).active = s.active := rfl
@[simp] theorem State.writeTc_err : (s.writeTc a p).err = s.err := rfl
@[simp] theorem State.writeTc_errInfo : (s.writeTc a p).errInfo = s.errInfo := rfl
@[simp] theorem State.writeTc_palSize : (s.writeTc a p).palSize = s.palSize := rfl
@[simp] theorem State.writeTc_lzwD : (s.writeTc a p).lzwD = s.lzwD := rfl
@[simp] theorem State.writeTc_codeWidth : (s.writeTc a p).codeWidth = s.codeWidth := rfl
@[simp] theorem State.writeTc_nextCode : (s.writeTc a p).nextCode = s.nextCode := rfl
@[simp] theorem State.writeTc_cur : (s.writeTc a p).cur = s.cur := rfl
@[simp] theorem State.writeTc_trie : (s.writeTc a p).trie = s.trie := rfl
@[simp] theorem State.writeTc_nbits : (s.writeTc a p).nbits = s.nbits := rfl
@[simp] theorem State.writeTc_partialByte : (s.writeTc a p).partialByte = s.partialByte := rfl
@[simp] theorem State.writeTc_bufCnt : (s.writeTc a p).bufCnt = s.bufCnt := rfl
@[simp] theorem State.writeTc_buf : (s.writeTc a p).buf = s.buf := rfl
@[simp] theorem State.writeTc_cmdq : (s.writeTc a p).cmdq = s.cmdq := rfl
@[simp] theorem State.writeTc_out : (s.writeTc a p).out = s.out := rfl
@[simp] theorem State.writeTc_tc : (s.writeTc a p).tc = Memory.write unwrittenPixel s.tc a p := rfl
@[simp] theorem State.writeTc_pal : (s.writeTc a p).pal = s.pal := rfl
@[simp] theorem State.writeTc_idx : (s.writeTc a p).idx = s.idx := rfl
@[simp] theorem State.writeTc_freeCtr : (s.writeTc a p).freeCtr = s.freeCtr := rfl
end

section
variable (s : State) (a : Nat) (p : Pixel)
@[simp] theorem State.writePal_params : (s.writePal a p).params = s.params := rfl
@[simp] theorem State.writePal_regs : (s.writePal a p).regs = s.regs := rfl
@[simp] theorem State.writePal_pc : (s.writePal a p).pc = s.pc := rfl
@[simp] theorem State.writePal_fault : (s.writePal a p).fault = s.fault := rfl
@[simp] theorem State.writePal_ovf : (s.writePal a p).ovf = s.ovf := rfl
@[simp] theorem State.writePal_active : (s.writePal a p).active = s.active := rfl
@[simp] theorem State.writePal_err : (s.writePal a p).err = s.err := rfl
@[simp] theorem State.writePal_errInfo : (s.writePal a p).errInfo = s.errInfo := rfl
@[simp] theorem State.writePal_palSize : (s.writePal a p).palSize = s.palSize := rfl
@[simp] theorem State.writePal_lzwD : (s.writePal a p).lzwD = s.lzwD := rfl
@[simp] theorem State.writePal_codeWidth : (s.writePal a p).codeWidth = s.codeWidth := rfl
@[simp] theorem State.writePal_nextCode : (s.writePal a p).nextCode = s.nextCode := rfl
@[simp] theorem State.writePal_cur : (s.writePal a p).cur = s.cur := rfl
@[simp] theorem State.writePal_trie : (s.writePal a p).trie = s.trie := rfl
@[simp] theorem State.writePal_nbits : (s.writePal a p).nbits = s.nbits := rfl
@[simp] theorem State.writePal_partialByte : (s.writePal a p).partialByte = s.partialByte := rfl
@[simp] theorem State.writePal_bufCnt : (s.writePal a p).bufCnt = s.bufCnt := rfl
@[simp] theorem State.writePal_buf : (s.writePal a p).buf = s.buf := rfl
@[simp] theorem State.writePal_cmdq : (s.writePal a p).cmdq = s.cmdq := rfl
@[simp] theorem State.writePal_out : (s.writePal a p).out = s.out := rfl
@[simp] theorem State.writePal_tc : (s.writePal a p).tc = s.tc := rfl
@[simp] theorem State.writePal_pal : (s.writePal a p).pal = Memory.write unwrittenPixel s.pal a p := rfl
@[simp] theorem State.writePal_idx : (s.writePal a p).idx = s.idx := rfl
@[simp] theorem State.writePal_freeCtr : (s.writePal a p).freeCtr = s.freeCtr := rfl
end

section
variable (s : State) (a : Nat) (b : Byte)
@[simp] theorem State.writeIdx_params : (s.writeIdx a b).params = s.params := rfl
@[simp] theorem State.writeIdx_regs : (s.writeIdx a b).regs = s.regs := rfl
@[simp] theorem State.writeIdx_pc : (s.writeIdx a b).pc = s.pc := rfl
@[simp] theorem State.writeIdx_fault : (s.writeIdx a b).fault = s.fault := rfl
@[simp] theorem State.writeIdx_ovf : (s.writeIdx a b).ovf = s.ovf := rfl
@[simp] theorem State.writeIdx_active : (s.writeIdx a b).active = s.active := rfl
@[simp] theorem State.writeIdx_err : (s.writeIdx a b).err = s.err := rfl
@[simp] theorem State.writeIdx_errInfo : (s.writeIdx a b).errInfo = s.errInfo := rfl
@[simp] theorem State.writeIdx_palSize : (s.writeIdx a b).palSize = s.palSize := rfl
@[simp] theorem State.writeIdx_lzwD : (s.writeIdx a b).lzwD = s.lzwD := rfl
@[simp] theorem State.writeIdx_codeWidth : (s.writeIdx a b).codeWidth = s.codeWidth := rfl
@[simp] theorem State.writeIdx_nextCode : (s.writeIdx a b).nextCode = s.nextCode := rfl
@[simp] theorem State.writeIdx_cur : (s.writeIdx a b).cur = s.cur := rfl
@[simp] theorem State.writeIdx_trie : (s.writeIdx a b).trie = s.trie := rfl
@[simp] theorem State.writeIdx_nbits : (s.writeIdx a b).nbits = s.nbits := rfl
@[simp] theorem State.writeIdx_partialByte : (s.writeIdx a b).partialByte = s.partialByte := rfl
@[simp] theorem State.writeIdx_bufCnt : (s.writeIdx a b).bufCnt = s.bufCnt := rfl
@[simp] theorem State.writeIdx_buf : (s.writeIdx a b).buf = s.buf := rfl
@[simp] theorem State.writeIdx_cmdq : (s.writeIdx a b).cmdq = s.cmdq := rfl
@[simp] theorem State.writeIdx_out : (s.writeIdx a b).out = s.out := rfl
@[simp] theorem State.writeIdx_tc : (s.writeIdx a b).tc = s.tc := rfl
@[simp] theorem State.writeIdx_pal : (s.writeIdx a b).pal = s.pal := rfl
@[simp] theorem State.writeIdx_idx : (s.writeIdx a b).idx = Memory.write unwrittenByte s.idx a b := rfl
@[simp] theorem State.writeIdx_freeCtr : (s.writeIdx a b).freeCtr = s.freeCtr := rfl
end

section
variable (s : State) (c : Nat) (v : Byte) (e : Option Code)
@[simp] theorem State.writeTrie_params : (s.writeTrie c v e).params = s.params := rfl
@[simp] theorem State.writeTrie_regs : (s.writeTrie c v e).regs = s.regs := rfl
@[simp] theorem State.writeTrie_pc : (s.writeTrie c v e).pc = s.pc := rfl
@[simp] theorem State.writeTrie_fault : (s.writeTrie c v e).fault = s.fault := rfl
@[simp] theorem State.writeTrie_ovf : (s.writeTrie c v e).ovf = s.ovf := rfl
@[simp] theorem State.writeTrie_active : (s.writeTrie c v e).active = s.active := rfl
@[simp] theorem State.writeTrie_err : (s.writeTrie c v e).err = s.err := rfl
@[simp] theorem State.writeTrie_errInfo : (s.writeTrie c v e).errInfo = s.errInfo := rfl
@[simp] theorem State.writeTrie_palSize : (s.writeTrie c v e).palSize = s.palSize := rfl
@[simp] theorem State.writeTrie_lzwD : (s.writeTrie c v e).lzwD = s.lzwD := rfl
@[simp] theorem State.writeTrie_codeWidth : (s.writeTrie c v e).codeWidth = s.codeWidth := rfl
@[simp] theorem State.writeTrie_nextCode : (s.writeTrie c v e).nextCode = s.nextCode := rfl
@[simp] theorem State.writeTrie_cur : (s.writeTrie c v e).cur = s.cur := rfl
@[simp] theorem State.writeTrie_trie : (s.writeTrie c v e).trie = Memory.write trieNone s.trie (trieAddr c v) e := rfl
@[simp] theorem State.writeTrie_nbits : (s.writeTrie c v e).nbits = s.nbits := rfl
@[simp] theorem State.writeTrie_partialByte : (s.writeTrie c v e).partialByte = s.partialByte := rfl
@[simp] theorem State.writeTrie_bufCnt : (s.writeTrie c v e).bufCnt = s.bufCnt := rfl
@[simp] theorem State.writeTrie_buf : (s.writeTrie c v e).buf = s.buf := rfl
@[simp] theorem State.writeTrie_cmdq : (s.writeTrie c v e).cmdq = s.cmdq := rfl
@[simp] theorem State.writeTrie_out : (s.writeTrie c v e).out = s.out := rfl
@[simp] theorem State.writeTrie_tc : (s.writeTrie c v e).tc = s.tc := rfl
@[simp] theorem State.writeTrie_pal : (s.writeTrie c v e).pal = s.pal := rfl
@[simp] theorem State.writeTrie_idx : (s.writeTrie c v e).idx = s.idx := rfl
@[simp] theorem State.writeTrie_freeCtr : (s.writeTrie c v e).freeCtr = s.freeCtr := rfl
end

section
variable (s : State) (a : Nat) (b : Byte)
@[simp] theorem State.writeBuf_params : (s.writeBuf a b).params = s.params := rfl
@[simp] theorem State.writeBuf_regs : (s.writeBuf a b).regs = s.regs := rfl
@[simp] theorem State.writeBuf_pc : (s.writeBuf a b).pc = s.pc := rfl
@[simp] theorem State.writeBuf_fault : (s.writeBuf a b).fault = s.fault := rfl
@[simp] theorem State.writeBuf_ovf : (s.writeBuf a b).ovf = s.ovf := rfl
@[simp] theorem State.writeBuf_active : (s.writeBuf a b).active = s.active := rfl
@[simp] theorem State.writeBuf_err : (s.writeBuf a b).err = s.err := rfl
@[simp] theorem State.writeBuf_errInfo : (s.writeBuf a b).errInfo = s.errInfo := rfl
@[simp] theorem State.writeBuf_palSize : (s.writeBuf a b).palSize = s.palSize := rfl
@[simp] theorem State.writeBuf_lzwD : (s.writeBuf a b).lzwD = s.lzwD := rfl
@[simp] theorem State.writeBuf_codeWidth : (s.writeBuf a b).codeWidth = s.codeWidth := rfl
@[simp] theorem State.writeBuf_nextCode : (s.writeBuf a b).nextCode = s.nextCode := rfl
@[simp] theorem State.writeBuf_cur : (s.writeBuf a b).cur = s.cur := rfl
@[simp] theorem State.writeBuf_trie : (s.writeBuf a b).trie = s.trie := rfl
@[simp] theorem State.writeBuf_nbits : (s.writeBuf a b).nbits = s.nbits := rfl
@[simp] theorem State.writeBuf_partialByte : (s.writeBuf a b).partialByte = s.partialByte := rfl
@[simp] theorem State.writeBuf_bufCnt : (s.writeBuf a b).bufCnt = s.bufCnt := rfl
@[simp] theorem State.writeBuf_buf : (s.writeBuf a b).buf = Memory.write unwrittenByte s.buf a b := rfl
@[simp] theorem State.writeBuf_cmdq : (s.writeBuf a b).cmdq = s.cmdq := rfl
@[simp] theorem State.writeBuf_out : (s.writeBuf a b).out = s.out := rfl
@[simp] theorem State.writeBuf_tc : (s.writeBuf a b).tc = s.tc := rfl
@[simp] theorem State.writeBuf_pal : (s.writeBuf a b).pal = s.pal := rfl
@[simp] theorem State.writeBuf_idx : (s.writeBuf a b).idx = s.idx := rfl
@[simp] theorem State.writeBuf_freeCtr : (s.writeBuf a b).freeCtr = s.freeCtr := rfl
end

section
variable (s : State) (e : ErrCode) (info : Word)
@[simp] theorem State.takeFault_params : (s.takeFault e info).params = s.params := rfl
@[simp] theorem State.takeFault_regs : (s.takeFault e info).regs = s.regs := rfl
@[simp] theorem State.takeFault_pc : (s.takeFault e info).pc = s.pc := rfl
@[simp] theorem State.takeFault_fault : (s.takeFault e info).fault = true := rfl
@[simp] theorem State.takeFault_ovf : (s.takeFault e info).ovf = s.ovf := rfl
@[simp] theorem State.takeFault_active : (s.takeFault e info).active = s.active := rfl
@[simp] theorem State.takeFault_err : (s.takeFault e info).err = e.code := rfl
@[simp] theorem State.takeFault_errInfo : (s.takeFault e info).errInfo = info := rfl
@[simp] theorem State.takeFault_palSize : (s.takeFault e info).palSize = s.palSize := rfl
@[simp] theorem State.takeFault_lzwD : (s.takeFault e info).lzwD = s.lzwD := rfl
@[simp] theorem State.takeFault_codeWidth : (s.takeFault e info).codeWidth = s.codeWidth := rfl
@[simp] theorem State.takeFault_nextCode : (s.takeFault e info).nextCode = s.nextCode := rfl
@[simp] theorem State.takeFault_cur : (s.takeFault e info).cur = s.cur := rfl
@[simp] theorem State.takeFault_trie : (s.takeFault e info).trie = s.trie := rfl
@[simp] theorem State.takeFault_nbits : (s.takeFault e info).nbits = s.nbits := rfl
@[simp] theorem State.takeFault_partialByte : (s.takeFault e info).partialByte = s.partialByte := rfl
@[simp] theorem State.takeFault_bufCnt : (s.takeFault e info).bufCnt = s.bufCnt := rfl
@[simp] theorem State.takeFault_buf : (s.takeFault e info).buf = s.buf := rfl
@[simp] theorem State.takeFault_cmdq : (s.takeFault e info).cmdq = s.cmdq := rfl
@[simp] theorem State.takeFault_out : (s.takeFault e info).out = s.out := rfl
@[simp] theorem State.takeFault_tc : (s.takeFault e info).tc = s.tc := rfl
@[simp] theorem State.takeFault_pal : (s.takeFault e info).pal = s.pal := rfl
@[simp] theorem State.takeFault_idx : (s.takeFault e info).idx = s.idx := rfl
@[simp] theorem State.takeFault_freeCtr : (s.takeFault e info).freeCtr = s.freeCtr := rfl
end

section
variable (s : State) (bs : List Byte)
@[simp] theorem State.outBytes_params : (s.outBytes bs).params = s.params := rfl
@[simp] theorem State.outBytes_regs : (s.outBytes bs).regs = s.regs := rfl
@[simp] theorem State.outBytes_pc : (s.outBytes bs).pc = s.pc := rfl
@[simp] theorem State.outBytes_fault : (s.outBytes bs).fault = s.fault := rfl
@[simp] theorem State.outBytes_ovf : (s.outBytes bs).ovf = s.ovf := rfl
@[simp] theorem State.outBytes_active : (s.outBytes bs).active = s.active := rfl
@[simp] theorem State.outBytes_err : (s.outBytes bs).err = s.err := rfl
@[simp] theorem State.outBytes_errInfo : (s.outBytes bs).errInfo = s.errInfo := rfl
@[simp] theorem State.outBytes_palSize : (s.outBytes bs).palSize = s.palSize := rfl
@[simp] theorem State.outBytes_lzwD : (s.outBytes bs).lzwD = s.lzwD := rfl
@[simp] theorem State.outBytes_codeWidth : (s.outBytes bs).codeWidth = s.codeWidth := rfl
@[simp] theorem State.outBytes_nextCode : (s.outBytes bs).nextCode = s.nextCode := rfl
@[simp] theorem State.outBytes_cur : (s.outBytes bs).cur = s.cur := rfl
@[simp] theorem State.outBytes_trie : (s.outBytes bs).trie = s.trie := rfl
@[simp] theorem State.outBytes_nbits : (s.outBytes bs).nbits = s.nbits := rfl
@[simp] theorem State.outBytes_partialByte : (s.outBytes bs).partialByte = s.partialByte := rfl
@[simp] theorem State.outBytes_bufCnt : (s.outBytes bs).bufCnt = s.bufCnt := rfl
@[simp] theorem State.outBytes_buf : (s.outBytes bs).buf = s.buf := rfl
@[simp] theorem State.outBytes_cmdq : (s.outBytes bs).cmdq = s.cmdq := rfl
@[simp] theorem State.outBytes_out : (s.outBytes bs).out = s.out ++ bs := rfl
@[simp] theorem State.outBytes_tc : (s.outBytes bs).tc = s.tc := rfl
@[simp] theorem State.outBytes_pal : (s.outBytes bs).pal = s.pal := rfl
@[simp] theorem State.outBytes_idx : (s.outBytes bs).idx = s.idx := rfl
@[simp] theorem State.outBytes_freeCtr : (s.outBytes bs).freeCtr = s.freeCtr := rfl
end

section
variable (s : State) (r : CfgReg) (v : Half)
@[simp] theorem State.setCfg_params : (s.setCfg r v).params = s.params := rfl
@[simp] theorem State.setCfg_regs : (s.setCfg r v).regs = s.regs.put r v := rfl
@[simp] theorem State.setCfg_pc : (s.setCfg r v).pc = s.pc := rfl
@[simp] theorem State.setCfg_fault : (s.setCfg r v).fault = s.fault := rfl
@[simp] theorem State.setCfg_ovf : (s.setCfg r v).ovf = s.ovf := rfl
@[simp] theorem State.setCfg_active : (s.setCfg r v).active = s.active := rfl
@[simp] theorem State.setCfg_err : (s.setCfg r v).err = s.err := rfl
@[simp] theorem State.setCfg_errInfo : (s.setCfg r v).errInfo = s.errInfo := rfl
@[simp] theorem State.setCfg_palSize : (s.setCfg r v).palSize = s.palSize := rfl
@[simp] theorem State.setCfg_lzwD : (s.setCfg r v).lzwD = s.lzwD := rfl
@[simp] theorem State.setCfg_codeWidth : (s.setCfg r v).codeWidth = s.codeWidth := rfl
@[simp] theorem State.setCfg_nextCode : (s.setCfg r v).nextCode = s.nextCode := rfl
@[simp] theorem State.setCfg_cur : (s.setCfg r v).cur = s.cur := rfl
@[simp] theorem State.setCfg_trie : (s.setCfg r v).trie = s.trie := rfl
@[simp] theorem State.setCfg_nbits : (s.setCfg r v).nbits = s.nbits := rfl
@[simp] theorem State.setCfg_partialByte : (s.setCfg r v).partialByte = s.partialByte := rfl
@[simp] theorem State.setCfg_bufCnt : (s.setCfg r v).bufCnt = s.bufCnt := rfl
@[simp] theorem State.setCfg_buf : (s.setCfg r v).buf = s.buf := rfl
@[simp] theorem State.setCfg_cmdq : (s.setCfg r v).cmdq = s.cmdq := rfl
@[simp] theorem State.setCfg_out : (s.setCfg r v).out = s.out := rfl
@[simp] theorem State.setCfg_tc : (s.setCfg r v).tc = s.tc := rfl
@[simp] theorem State.setCfg_pal : (s.setCfg r v).pal = s.pal := rfl
@[simp] theorem State.setCfg_idx : (s.setCfg r v).idx = s.idx := rfl
@[simp] theorem State.setCfg_freeCtr : (s.setCfg r v).freeCtr = s.freeCtr := rfl
end

section
variable (s : State) (o : Bool) (n : Nat)
@[simp] theorem State.endPass_params : (s.endPass o n).params = s.params := rfl
@[simp] theorem State.endPass_regs : (s.endPass o n).regs = s.regs := rfl
@[simp] theorem State.endPass_pc : (s.endPass o n).pc = s.pc := rfl
@[simp] theorem State.endPass_fault : (s.endPass o n).fault = s.fault := rfl
@[simp] theorem State.endPass_ovf : (s.endPass o n).ovf = o := rfl
@[simp] theorem State.endPass_active : (s.endPass o n).active = s.active := rfl
@[simp] theorem State.endPass_err : (s.endPass o n).err = s.err := rfl
@[simp] theorem State.endPass_errInfo : (s.endPass o n).errInfo = s.errInfo := rfl
@[simp] theorem State.endPass_palSize : (s.endPass o n).palSize = BitVec.ofNat 9 n := rfl
@[simp] theorem State.endPass_lzwD : (s.endPass o n).lzwD = s.lzwD := rfl
@[simp] theorem State.endPass_codeWidth : (s.endPass o n).codeWidth = s.codeWidth := rfl
@[simp] theorem State.endPass_nextCode : (s.endPass o n).nextCode = s.nextCode := rfl
@[simp] theorem State.endPass_cur : (s.endPass o n).cur = s.cur := rfl
@[simp] theorem State.endPass_trie : (s.endPass o n).trie = s.trie := rfl
@[simp] theorem State.endPass_nbits : (s.endPass o n).nbits = s.nbits := rfl
@[simp] theorem State.endPass_partialByte : (s.endPass o n).partialByte = s.partialByte := rfl
@[simp] theorem State.endPass_bufCnt : (s.endPass o n).bufCnt = s.bufCnt := rfl
@[simp] theorem State.endPass_buf : (s.endPass o n).buf = s.buf := rfl
@[simp] theorem State.endPass_cmdq : (s.endPass o n).cmdq = s.cmdq := rfl
@[simp] theorem State.endPass_out : (s.endPass o n).out = s.out := rfl
@[simp] theorem State.endPass_tc : (s.endPass o n).tc = s.tc := rfl
@[simp] theorem State.endPass_pal : (s.endPass o n).pal = s.pal := rfl
@[simp] theorem State.endPass_idx : (s.endPass o n).idx = s.idx := rfl
@[simp] theorem State.endPass_freeCtr : (s.endPass o n).freeCtr = s.freeCtr := rfl
end

section
variable (s : State)
@[simp] theorem State.openFrame_params : s.openFrame.params = s.params := rfl
@[simp] theorem State.openFrame_regs : s.openFrame.regs = s.regs := rfl
@[simp] theorem State.openFrame_pc : s.openFrame.pc = s.pc := rfl
@[simp] theorem State.openFrame_fault : s.openFrame.fault = s.fault := rfl
@[simp] theorem State.openFrame_ovf : s.openFrame.ovf = s.ovf := rfl
@[simp] theorem State.openFrame_active : s.openFrame.active = true := rfl
@[simp] theorem State.openFrame_err : s.openFrame.err = s.err := rfl
@[simp] theorem State.openFrame_errInfo : s.openFrame.errInfo = s.errInfo := rfl
@[simp] theorem State.openFrame_palSize : s.openFrame.palSize = s.palSize := rfl
@[simp] theorem State.openFrame_lzwD : s.openFrame.lzwD = s.lzwD := rfl
@[simp] theorem State.openFrame_codeWidth : s.openFrame.codeWidth = s.codeWidth := rfl
@[simp] theorem State.openFrame_nextCode : s.openFrame.nextCode = s.nextCode := rfl
@[simp] theorem State.openFrame_cur : s.openFrame.cur = s.cur := rfl
@[simp] theorem State.openFrame_trie : s.openFrame.trie = s.trie := rfl
@[simp] theorem State.openFrame_nbits : s.openFrame.nbits = s.nbits := rfl
@[simp] theorem State.openFrame_partialByte : s.openFrame.partialByte = s.partialByte := rfl
@[simp] theorem State.openFrame_bufCnt : s.openFrame.bufCnt = s.bufCnt := rfl
@[simp] theorem State.openFrame_buf : s.openFrame.buf = s.buf := rfl
@[simp] theorem State.openFrame_cmdq : s.openFrame.cmdq = s.cmdq := rfl
@[simp] theorem State.openFrame_out : s.openFrame.out = s.out := rfl
@[simp] theorem State.openFrame_tc : s.openFrame.tc = s.tc := rfl
@[simp] theorem State.openFrame_pal : s.openFrame.pal = s.pal := rfl
@[simp] theorem State.openFrame_idx : s.openFrame.idx = s.idx := rfl
@[simp] theorem State.openFrame_freeCtr : s.openFrame.freeCtr = s.freeCtr := rfl
end

section
variable (s : State)
@[simp] theorem State.closeFrame_params : s.closeFrame.params = s.params := rfl
@[simp] theorem State.closeFrame_regs : s.closeFrame.regs = s.regs := rfl
@[simp] theorem State.closeFrame_pc : s.closeFrame.pc = s.pc := rfl
@[simp] theorem State.closeFrame_fault : s.closeFrame.fault = s.fault := rfl
@[simp] theorem State.closeFrame_ovf : s.closeFrame.ovf = s.ovf := rfl
@[simp] theorem State.closeFrame_active : s.closeFrame.active = false := rfl
@[simp] theorem State.closeFrame_err : s.closeFrame.err = s.err := rfl
@[simp] theorem State.closeFrame_errInfo : s.closeFrame.errInfo = s.errInfo := rfl
@[simp] theorem State.closeFrame_palSize : s.closeFrame.palSize = s.palSize := rfl
@[simp] theorem State.closeFrame_lzwD : s.closeFrame.lzwD = s.lzwD := rfl
@[simp] theorem State.closeFrame_codeWidth : s.closeFrame.codeWidth = s.codeWidth := rfl
@[simp] theorem State.closeFrame_nextCode : s.closeFrame.nextCode = s.nextCode := rfl
@[simp] theorem State.closeFrame_cur : s.closeFrame.cur = s.cur := rfl
@[simp] theorem State.closeFrame_trie : s.closeFrame.trie = s.trie := rfl
@[simp] theorem State.closeFrame_nbits : s.closeFrame.nbits = s.nbits := rfl
@[simp] theorem State.closeFrame_partialByte : s.closeFrame.partialByte = s.partialByte := rfl
@[simp] theorem State.closeFrame_bufCnt : s.closeFrame.bufCnt = s.bufCnt := rfl
@[simp] theorem State.closeFrame_buf : s.closeFrame.buf = s.buf := rfl
@[simp] theorem State.closeFrame_cmdq : s.closeFrame.cmdq = s.cmdq := rfl
@[simp] theorem State.closeFrame_out : s.closeFrame.out = s.out := rfl
@[simp] theorem State.closeFrame_tc : s.closeFrame.tc = s.tc := rfl
@[simp] theorem State.closeFrame_pal : s.closeFrame.pal = s.pal := rfl
@[simp] theorem State.closeFrame_idx : s.closeFrame.idx = s.idx := rfl
@[simp] theorem State.closeFrame_freeCtr : s.closeFrame.freeCtr = s.freeCtr := rfl
end

section
variable (s : State) (n : Nat)
@[simp] theorem State.flush_params : (s.flush n).params = s.params := rfl
@[simp] theorem State.flush_regs : (s.flush n).regs = s.regs := rfl
@[simp] theorem State.flush_pc : (s.flush n).pc = s.pc := rfl
@[simp] theorem State.flush_fault : (s.flush n).fault = s.fault := rfl
@[simp] theorem State.flush_ovf : (s.flush n).ovf = s.ovf := rfl
@[simp] theorem State.flush_active : (s.flush n).active = s.active := rfl
@[simp] theorem State.flush_err : (s.flush n).err = s.err := rfl
@[simp] theorem State.flush_errInfo : (s.flush n).errInfo = s.errInfo := rfl
@[simp] theorem State.flush_palSize : (s.flush n).palSize = s.palSize := rfl
@[simp] theorem State.flush_lzwD : (s.flush n).lzwD = s.lzwD := rfl
@[simp] theorem State.flush_codeWidth : (s.flush n).codeWidth = s.codeWidth := rfl
@[simp] theorem State.flush_nextCode : (s.flush n).nextCode = s.nextCode := rfl
@[simp] theorem State.flush_cur : (s.flush n).cur = s.cur := rfl
@[simp] theorem State.flush_trie : (s.flush n).trie = s.trie := rfl
@[simp] theorem State.flush_nbits : (s.flush n).nbits = s.nbits := rfl
@[simp] theorem State.flush_partialByte : (s.flush n).partialByte = s.partialByte := rfl
@[simp] theorem State.flush_bufCnt : (s.flush n).bufCnt = 0#8 := rfl
@[simp] theorem State.flush_buf : (s.flush n).buf = s.buf := rfl
@[simp] theorem State.flush_cmdq : (s.flush n).cmdq = s.cmdq := rfl
@[simp] theorem State.flush_out : (s.flush n).out = s.out ++ BitVec.ofNat 8 n :: s.bufBytes n := rfl
@[simp] theorem State.flush_tc : (s.flush n).tc = s.tc := rfl
@[simp] theorem State.flush_pal : (s.flush n).pal = s.pal := rfl
@[simp] theorem State.flush_idx : (s.flush n).idx = s.idx := rfl
@[simp] theorem State.flush_freeCtr : (s.flush n).freeCtr = s.freeCtr := rfl
end

section
variable (s : State) (v : Byte)
@[simp] theorem State.curBase_params : (s.curBase v).params = s.params := rfl
@[simp] theorem State.curBase_regs : (s.curBase v).regs = s.regs := rfl
@[simp] theorem State.curBase_pc : (s.curBase v).pc = s.pc := rfl
@[simp] theorem State.curBase_fault : (s.curBase v).fault = s.fault := rfl
@[simp] theorem State.curBase_ovf : (s.curBase v).ovf = s.ovf := rfl
@[simp] theorem State.curBase_active : (s.curBase v).active = s.active := rfl
@[simp] theorem State.curBase_err : (s.curBase v).err = s.err := rfl
@[simp] theorem State.curBase_errInfo : (s.curBase v).errInfo = s.errInfo := rfl
@[simp] theorem State.curBase_palSize : (s.curBase v).palSize = s.palSize := rfl
@[simp] theorem State.curBase_lzwD : (s.curBase v).lzwD = s.lzwD := rfl
@[simp] theorem State.curBase_codeWidth : (s.curBase v).codeWidth = s.codeWidth := rfl
@[simp] theorem State.curBase_nextCode : (s.curBase v).nextCode = s.nextCode := rfl
@[simp] theorem State.curBase_cur : (s.curBase v).cur = v.zeroExtend 13 := rfl
@[simp] theorem State.curBase_trie : (s.curBase v).trie = s.trie := rfl
@[simp] theorem State.curBase_nbits : (s.curBase v).nbits = s.nbits := rfl
@[simp] theorem State.curBase_partialByte : (s.curBase v).partialByte = s.partialByte := rfl
@[simp] theorem State.curBase_bufCnt : (s.curBase v).bufCnt = s.bufCnt := rfl
@[simp] theorem State.curBase_buf : (s.curBase v).buf = s.buf := rfl
@[simp] theorem State.curBase_cmdq : (s.curBase v).cmdq = s.cmdq := rfl
@[simp] theorem State.curBase_out : (s.curBase v).out = s.out := rfl
@[simp] theorem State.curBase_tc : (s.curBase v).tc = s.tc := rfl
@[simp] theorem State.curBase_pal : (s.curBase v).pal = s.pal := rfl
@[simp] theorem State.curBase_idx : (s.curBase v).idx = s.idx := rfl
@[simp] theorem State.curBase_freeCtr : (s.curBase v).freeCtr = s.freeCtr := rfl
end

section
variable (s : State) (c : Code)
@[simp] theorem State.curCode_params : (s.curCode c).params = s.params := rfl
@[simp] theorem State.curCode_regs : (s.curCode c).regs = s.regs := rfl
@[simp] theorem State.curCode_pc : (s.curCode c).pc = s.pc := rfl
@[simp] theorem State.curCode_fault : (s.curCode c).fault = s.fault := rfl
@[simp] theorem State.curCode_ovf : (s.curCode c).ovf = s.ovf := rfl
@[simp] theorem State.curCode_active : (s.curCode c).active = s.active := rfl
@[simp] theorem State.curCode_err : (s.curCode c).err = s.err := rfl
@[simp] theorem State.curCode_errInfo : (s.curCode c).errInfo = s.errInfo := rfl
@[simp] theorem State.curCode_palSize : (s.curCode c).palSize = s.palSize := rfl
@[simp] theorem State.curCode_lzwD : (s.curCode c).lzwD = s.lzwD := rfl
@[simp] theorem State.curCode_codeWidth : (s.curCode c).codeWidth = s.codeWidth := rfl
@[simp] theorem State.curCode_nextCode : (s.curCode c).nextCode = s.nextCode := rfl
@[simp] theorem State.curCode_cur : (s.curCode c).cur = c.zeroExtend 13 := rfl
@[simp] theorem State.curCode_trie : (s.curCode c).trie = s.trie := rfl
@[simp] theorem State.curCode_nbits : (s.curCode c).nbits = s.nbits := rfl
@[simp] theorem State.curCode_partialByte : (s.curCode c).partialByte = s.partialByte := rfl
@[simp] theorem State.curCode_bufCnt : (s.curCode c).bufCnt = s.bufCnt := rfl
@[simp] theorem State.curCode_buf : (s.curCode c).buf = s.buf := rfl
@[simp] theorem State.curCode_cmdq : (s.curCode c).cmdq = s.cmdq := rfl
@[simp] theorem State.curCode_out : (s.curCode c).out = s.out := rfl
@[simp] theorem State.curCode_tc : (s.curCode c).tc = s.tc := rfl
@[simp] theorem State.curCode_pal : (s.curCode c).pal = s.pal := rfl
@[simp] theorem State.curCode_idx : (s.curCode c).idx = s.idx := rfl
@[simp] theorem State.curCode_freeCtr : (s.curCode c).freeCtr = s.freeCtr := rfl
end

section
variable (s : State)
@[simp] theorem State.curRoot_params : s.curRoot.params = s.params := rfl
@[simp] theorem State.curRoot_regs : s.curRoot.regs = s.regs := rfl
@[simp] theorem State.curRoot_pc : s.curRoot.pc = s.pc := rfl
@[simp] theorem State.curRoot_fault : s.curRoot.fault = s.fault := rfl
@[simp] theorem State.curRoot_ovf : s.curRoot.ovf = s.ovf := rfl
@[simp] theorem State.curRoot_active : s.curRoot.active = s.active := rfl
@[simp] theorem State.curRoot_err : s.curRoot.err = s.err := rfl
@[simp] theorem State.curRoot_errInfo : s.curRoot.errInfo = s.errInfo := rfl
@[simp] theorem State.curRoot_palSize : s.curRoot.palSize = s.palSize := rfl
@[simp] theorem State.curRoot_lzwD : s.curRoot.lzwD = s.lzwD := rfl
@[simp] theorem State.curRoot_codeWidth : s.curRoot.codeWidth = s.codeWidth := rfl
@[simp] theorem State.curRoot_nextCode : s.curRoot.nextCode = s.nextCode := rfl
@[simp] theorem State.curRoot_cur : s.curRoot.cur = rootCur := rfl
@[simp] theorem State.curRoot_trie : s.curRoot.trie = s.trie := rfl
@[simp] theorem State.curRoot_nbits : s.curRoot.nbits = s.nbits := rfl
@[simp] theorem State.curRoot_partialByte : s.curRoot.partialByte = s.partialByte := rfl
@[simp] theorem State.curRoot_bufCnt : s.curRoot.bufCnt = s.bufCnt := rfl
@[simp] theorem State.curRoot_buf : s.curRoot.buf = s.buf := rfl
@[simp] theorem State.curRoot_cmdq : s.curRoot.cmdq = s.cmdq := rfl
@[simp] theorem State.curRoot_out : s.curRoot.out = s.out := rfl
@[simp] theorem State.curRoot_tc : s.curRoot.tc = s.tc := rfl
@[simp] theorem State.curRoot_pal : s.curRoot.pal = s.pal := rfl
@[simp] theorem State.curRoot_idx : s.curRoot.idx = s.idx := rfl
@[simp] theorem State.curRoot_freeCtr : s.curRoot.freeCtr = s.freeCtr := rfl
end

section
variable (s : State)
@[simp] theorem State.trieReset_params : s.trieReset.params = s.params := rfl
@[simp] theorem State.trieReset_regs : s.trieReset.regs = s.regs := rfl
@[simp] theorem State.trieReset_pc : s.trieReset.pc = s.pc := rfl
@[simp] theorem State.trieReset_fault : s.trieReset.fault = s.fault := rfl
@[simp] theorem State.trieReset_ovf : s.trieReset.ovf = s.ovf := rfl
@[simp] theorem State.trieReset_active : s.trieReset.active = s.active := rfl
@[simp] theorem State.trieReset_err : s.trieReset.err = s.err := rfl
@[simp] theorem State.trieReset_errInfo : s.trieReset.errInfo = s.errInfo := rfl
@[simp] theorem State.trieReset_palSize : s.trieReset.palSize = s.palSize := rfl
@[simp] theorem State.trieReset_lzwD : s.trieReset.lzwD = s.lzwD := rfl
@[simp] theorem State.trieReset_codeWidth : s.trieReset.codeWidth = BitVec.ofNat 4 (s.lzwD.toNat + 1) := rfl
@[simp] theorem State.trieReset_nextCode : s.trieReset.nextCode = BitVec.ofNat 13 (firstCode s.lzwD.toNat) := rfl
@[simp] theorem State.trieReset_cur : s.trieReset.cur = s.cur := rfl
@[simp] theorem State.trieReset_trie : s.trieReset.trie = [] := rfl
@[simp] theorem State.trieReset_nbits : s.trieReset.nbits = s.nbits := rfl
@[simp] theorem State.trieReset_partialByte : s.trieReset.partialByte = s.partialByte := rfl
@[simp] theorem State.trieReset_bufCnt : s.trieReset.bufCnt = s.bufCnt := rfl
@[simp] theorem State.trieReset_buf : s.trieReset.buf = s.buf := rfl
@[simp] theorem State.trieReset_cmdq : s.trieReset.cmdq = s.cmdq := rfl
@[simp] theorem State.trieReset_out : s.trieReset.out = s.out := rfl
@[simp] theorem State.trieReset_tc : s.trieReset.tc = s.tc := rfl
@[simp] theorem State.trieReset_pal : s.trieReset.pal = s.pal := rfl
@[simp] theorem State.trieReset_idx : s.trieReset.idx = s.idx := rfl
@[simp] theorem State.trieReset_freeCtr : s.trieReset.freeCtr = s.freeCtr := rfl
end

section
variable (s : State) (v : Byte)
@[simp] theorem State.attach_params : (s.attach v).params = s.params := rfl
@[simp] theorem State.attach_regs : (s.attach v).regs = s.regs := rfl
@[simp] theorem State.attach_pc : (s.attach v).pc = s.pc := rfl
@[simp] theorem State.attach_fault : (s.attach v).fault = s.fault := rfl
@[simp] theorem State.attach_ovf : (s.attach v).ovf = s.ovf := rfl
@[simp] theorem State.attach_active : (s.attach v).active = s.active := rfl
@[simp] theorem State.attach_err : (s.attach v).err = s.err := rfl
@[simp] theorem State.attach_errInfo : (s.attach v).errInfo = s.errInfo := rfl
@[simp] theorem State.attach_palSize : (s.attach v).palSize = s.palSize := rfl
@[simp] theorem State.attach_lzwD : (s.attach v).lzwD = s.lzwD := rfl
@[simp] theorem State.attach_codeWidth : (s.attach v).codeWidth = BitVec.ofNat 4 (if s.nextCode.toNat = 2 ^ s.codeWidth.toNat then s.codeWidth.toNat + 1 else s.codeWidth.toNat) := rfl
@[simp] theorem State.attach_nextCode : (s.attach v).nextCode = BitVec.ofNat 13 (s.nextCode.toNat + 1) := rfl
@[simp] theorem State.attach_cur : (s.attach v).cur = s.cur := rfl
@[simp] theorem State.attach_trie : (s.attach v).trie = Memory.write trieNone s.trie (trieAddr s.cur.toNat v) (some (BitVec.ofNat 12 s.nextCode.toNat)) := rfl
@[simp] theorem State.attach_nbits : (s.attach v).nbits = s.nbits := rfl
@[simp] theorem State.attach_partialByte : (s.attach v).partialByte = s.partialByte := rfl
@[simp] theorem State.attach_bufCnt : (s.attach v).bufCnt = s.bufCnt := rfl
@[simp] theorem State.attach_buf : (s.attach v).buf = s.buf := rfl
@[simp] theorem State.attach_cmdq : (s.attach v).cmdq = s.cmdq := rfl
@[simp] theorem State.attach_out : (s.attach v).out = s.out := rfl
@[simp] theorem State.attach_tc : (s.attach v).tc = s.tc := rfl
@[simp] theorem State.attach_pal : (s.attach v).pal = s.pal := rfl
@[simp] theorem State.attach_idx : (s.attach v).idx = s.idx := rfl
@[simp] theorem State.attach_freeCtr : (s.attach v).freeCtr = s.freeCtr := rfl
end

section
variable (s : State)
@[simp] theorem State.discardTrie_params : s.discardTrie.params = s.params := rfl
@[simp] theorem State.discardTrie_regs : s.discardTrie.regs = s.regs := rfl
@[simp] theorem State.discardTrie_pc : s.discardTrie.pc = s.pc := rfl
@[simp] theorem State.discardTrie_fault : s.discardTrie.fault = s.fault := rfl
@[simp] theorem State.discardTrie_ovf : s.discardTrie.ovf = s.ovf := rfl
@[simp] theorem State.discardTrie_active : s.discardTrie.active = s.active := rfl
@[simp] theorem State.discardTrie_err : s.discardTrie.err = s.err := rfl
@[simp] theorem State.discardTrie_errInfo : s.discardTrie.errInfo = s.errInfo := rfl
@[simp] theorem State.discardTrie_palSize : s.discardTrie.palSize = s.palSize := rfl
@[simp] theorem State.discardTrie_lzwD : s.discardTrie.lzwD = s.lzwD := rfl
@[simp] theorem State.discardTrie_codeWidth : s.discardTrie.codeWidth = s.codeWidth := rfl
@[simp] theorem State.discardTrie_nextCode : s.discardTrie.nextCode = s.nextCode := rfl
@[simp] theorem State.discardTrie_cur : s.discardTrie.cur = s.cur := rfl
@[simp] theorem State.discardTrie_trie : s.discardTrie.trie = Memory.ofWrites trieNone trieEntries (Config.freeTrie s.freeCtr) := rfl
@[simp] theorem State.discardTrie_nbits : s.discardTrie.nbits = s.nbits := rfl
@[simp] theorem State.discardTrie_partialByte : s.discardTrie.partialByte = s.partialByte := rfl
@[simp] theorem State.discardTrie_bufCnt : s.discardTrie.bufCnt = s.bufCnt := rfl
@[simp] theorem State.discardTrie_buf : s.discardTrie.buf = s.buf := rfl
@[simp] theorem State.discardTrie_cmdq : s.discardTrie.cmdq = s.cmdq := rfl
@[simp] theorem State.discardTrie_out : s.discardTrie.out = s.out := rfl
@[simp] theorem State.discardTrie_tc : s.discardTrie.tc = s.tc := rfl
@[simp] theorem State.discardTrie_pal : s.discardTrie.pal = s.pal := rfl
@[simp] theorem State.discardTrie_idx : s.discardTrie.idx = s.idx := rfl
@[simp] theorem State.discardTrie_freeCtr : s.discardTrie.freeCtr = s.freeCtr + 1 := rfl
end

section
variable (s : State) (w : Word)
@[simp] theorem State.queueFirst_params : (s.queueFirst w).params = s.params := rfl
@[simp] theorem State.queueFirst_regs : (s.queueFirst w).regs = s.regs := rfl
@[simp] theorem State.queueFirst_pc : (s.queueFirst w).pc = s.pc := rfl
@[simp] theorem State.queueFirst_fault : (s.queueFirst w).fault = s.fault := rfl
@[simp] theorem State.queueFirst_ovf : (s.queueFirst w).ovf = s.ovf := rfl
@[simp] theorem State.queueFirst_active : (s.queueFirst w).active = s.active := rfl
@[simp] theorem State.queueFirst_err : (s.queueFirst w).err = s.err := rfl
@[simp] theorem State.queueFirst_errInfo : (s.queueFirst w).errInfo = s.errInfo := rfl
@[simp] theorem State.queueFirst_palSize : (s.queueFirst w).palSize = s.palSize := rfl
@[simp] theorem State.queueFirst_lzwD : (s.queueFirst w).lzwD = s.lzwD := rfl
@[simp] theorem State.queueFirst_codeWidth : (s.queueFirst w).codeWidth = s.codeWidth := rfl
@[simp] theorem State.queueFirst_nextCode : (s.queueFirst w).nextCode = s.nextCode := rfl
@[simp] theorem State.queueFirst_cur : (s.queueFirst w).cur = s.cur := rfl
@[simp] theorem State.queueFirst_trie : (s.queueFirst w).trie = s.trie := rfl
@[simp] theorem State.queueFirst_nbits : (s.queueFirst w).nbits = s.nbits := rfl
@[simp] theorem State.queueFirst_partialByte : (s.queueFirst w).partialByte = s.partialByte := rfl
@[simp] theorem State.queueFirst_bufCnt : (s.queueFirst w).bufCnt = s.bufCnt := rfl
@[simp] theorem State.queueFirst_buf : (s.queueFirst w).buf = s.buf := rfl
@[simp] theorem State.queueFirst_cmdq : (s.queueFirst w).cmdq = w :: s.cmdq := rfl
@[simp] theorem State.queueFirst_out : (s.queueFirst w).out = s.out := rfl
@[simp] theorem State.queueFirst_tc : (s.queueFirst w).tc = s.tc := rfl
@[simp] theorem State.queueFirst_pal : (s.queueFirst w).pal = s.pal := rfl
@[simp] theorem State.queueFirst_idx : (s.queueFirst w).idx = s.idx := rfl
@[simp] theorem State.queueFirst_freeCtr : (s.queueFirst w).freeCtr = s.freeCtr := rfl
end

end Sys2Proof.Machine
end

