-- ==== Sys2Proof/Laws/Memory.lean ====
section
/-! SUPPORT. The laws of one memory space: a read after a write, the canonical form, equality by reads. -/

namespace Sys2Proof.Machine

variable {α : Type}

@[simp] theorem Memory.read_nil (d : α) (a : Nat) : Memory.read d [] a = d := rfl

theorem Memory.read_cons (d : α) (k : Nat) (x : α) (m : Memory α) (a : Nat) :
    Memory.read d ((k, x) :: m) a = if k = a then x else Memory.read d m a := rfl

theorem Memory.read_erase (d : α) (m : Memory α) (a b : Nat) :
    Memory.read d (Memory.erase m a) b = if a = b then d else Memory.read d m b := by
  induction m with
  | nil => simp [Memory.erase]
  | cons c m ih =>
    obtain ⟨k, x⟩ := c
    unfold Memory.erase at ih ⊢
    by_cases hk : k = a
    · subst hk
      rw [List.filter_cons_of_neg (by simp), ih]
      by_cases hb : k = b <;> simp [Memory.read_cons, hb]
    · rw [List.filter_cons_of_pos (by simpa using hk), Memory.read_cons, ih, Memory.read_cons]
      by_cases hb : a = b
      · subst hb; simp [hk]
      · simp [hb]

theorem Memory.read_insert (d : α) (m : Memory α) (a b : Nat) (v : α) :
    Memory.read d (Memory.insert m a v) b = if a = b then v else Memory.read d m b := by
  induction m with
  | nil => simp [Memory.insert, Memory.read_cons]
  | cons c m ih =>
    obtain ⟨k, x⟩ := c
    unfold Memory.insert
    split
    · simp [Memory.read_cons]
    · split
      · next h => subst h; by_cases hb : a = b <;> simp [Memory.read_cons, hb]
      · next h1 h2 =>
        simp only [Memory.read_cons, ih]
        by_cases hb : a = b
        · subst hb; simp [Ne.symm h2]
        · simp [hb]

variable [DecidableEq α]

/-- What a read gives after a write, at the same address and at any other. -/
theorem Memory.read_write (d : α) (m : Memory α) (a b : Nat) (v : α) :
    Memory.read d (Memory.write d m a v) b = if a = b then v else Memory.read d m b := by
  unfold Memory.write
  split
  · next h => subst h; exact Memory.read_erase ..
  · exact Memory.read_insert ..

@[simp] theorem Memory.read_write_same (d : α) (m : Memory α) (a : Nat) (v : α) :
    Memory.read d (Memory.write d m a v) a = v := by simp [Memory.read_write]

theorem Memory.read_write_other (d : α) (m : Memory α) {a b : Nat} (v : α) (h : a ≠ b) :
    Memory.read d (Memory.write d m a v) b = Memory.read d m b := by simp [Memory.read_write, h]

/-! ### The canonical form -/

theorem Memory.wf_iff (d : α) (m : Memory α) :
    Memory.wf d m = true ↔ (m.Pairwise fun c c' => c.1 < c'.1) ∧ ∀ c ∈ m, c.2 ≠ d := by
  simp [Memory.wf, Memory.rising]

omit [DecidableEq α] in
theorem Memory.within_iff (size : Nat) (m : Memory α) :
    Memory.within size m = true ↔ ∀ c ∈ m, c.1 < size := by simp [Memory.within]

omit [DecidableEq α] in
theorem Memory.mem_insert {m : Memory α} {a : Nat} {v : α} {c : Nat × α} (h : c ∈ Memory.insert m a v) :
    c = (a, v) ∨ c ∈ m := by
  induction m with
  | nil => simpa [Memory.insert] using h
  | cons e m ih =>
    unfold Memory.insert at h
    split at h
    · simpa using h
    · split at h
      · rcases List.mem_cons.1 h with h | h
        · exact .inl h
        · exact .inr (List.mem_cons_of_mem _ h)
      · rcases List.mem_cons.1 h with h | h
        · exact .inr (by simp [h])
        · rcases ih h with h | h
          · exact .inl h
          · exact .inr (List.mem_cons_of_mem _ h)

omit [DecidableEq α] in
theorem Memory.insert_rising {m : Memory α} (h : m.Pairwise fun c c' => c.1 < c'.1) (a : Nat) (v : α) :
    (Memory.insert m a v).Pairwise fun c c' => c.1 < c'.1 := by
  induction m with
  | nil => simp [Memory.insert]
  | cons e m ih =>
    obtain ⟨k, x⟩ := e
    rw [List.pairwise_cons] at h
    unfold Memory.insert
    split
    · next hk =>
      refine List.pairwise_cons.2 ⟨fun c hc => ?_, List.pairwise_cons.2 h⟩
      rcases List.mem_cons.1 hc with rfl | hc
      · exact hk
      · exact hk.trans (h.1 c hc)
    · split
      · next hk => subst hk; exact List.pairwise_cons.2 h
      · next h1 h2 =>
        refine List.pairwise_cons.2 ⟨fun c hc => ?_, ih h.2⟩
        rcases Memory.mem_insert hc with rfl | hc
        · show k < a; omega
        · exact h.1 c hc

/-- Every write keeps the canonical form. -/
theorem Memory.wf_write {d : α} {m : Memory α} (h : Memory.wf d m = true) (a : Nat) (v : α) :
    Memory.wf d (Memory.write d m a v) = true := by
  rw [Memory.wf_iff] at h ⊢
  unfold Memory.write
  split
  · exact ⟨h.1.filter _, fun c hc => h.2 c (List.mem_of_mem_filter hc)⟩
  · next hv =>
    refine ⟨Memory.insert_rising h.1 a v, fun c hc => ?_⟩
    rcases Memory.mem_insert hc with rfl | hc
    · exact hv
    · exact h.2 c hc

/-- A write inside the space keeps a memory inside its space. -/
theorem Memory.within_write {d : α} {size : Nat} {m : Memory α} (h : Memory.within size m = true) {a : Nat}
    (ha : a < size) (v : α) : Memory.within size (Memory.write d m a v) = true := by
  rw [Memory.within_iff] at h ⊢
  unfold Memory.write
  intro c hc
  split at hc
  · exact h c (List.mem_of_mem_filter hc)
  · rcases Memory.mem_insert hc with rfl | hc
    · exact ha
    · exact h c hc

theorem Memory.ofWrites_ok (d : α) (size : Nat) (ws : List (Nat × α)) :
    Memory.wf d (Memory.ofWrites d size ws) = true ∧ Memory.within size (Memory.ofWrites d size ws) = true := by
  unfold Memory.ofWrites
  suffices h : ∀ m : Memory α, Memory.wf d m = true → Memory.within size m = true →
      Memory.wf d (ws.foldl (fun m c => if c.1 < size then Memory.write d m c.1 c.2 else m) m) = true ∧
      Memory.within size (ws.foldl (fun m c => if c.1 < size then Memory.write d m c.1 c.2 else m) m) = true from
    h [] (by simp [Memory.wf, Memory.rising]) (by simp [Memory.within])
  induction ws with
  | nil => exact fun m h1 h2 => ⟨h1, h2⟩
  | cons c ws ih =>
    intro m h1 h2
    simp only [List.foldl_cons]
    by_cases hc : c.1 < size
    · rw [if_pos hc]; exact ih _ (Memory.wf_write h1 _ _) (Memory.within_write h2 hc _)
    · rw [if_neg hc]; exact ih _ h1 h2

omit [DecidableEq α] in
theorem Memory.read_eq_of_forall_lt (d : α) {m : Memory α} {a : Nat} (h : ∀ c ∈ m, a < c.1) :
    Memory.read d m a = d := by
  induction m with
  | nil => rfl
  | cons c m ih =>
    obtain ⟨k, x⟩ := c
    have hk : a < k := h (k, x) List.mem_cons_self
    rw [Memory.read_cons, if_neg (by omega)]
    exact ih fun c hc => h c (List.mem_cons_of_mem _ hc)

omit [DecidableEq α] in
/-- A listed cell is what its address reads as. -/
theorem Memory.read_of_mem (d : α) {m : Memory α} (h : m.Pairwise fun c c' => c.1 < c'.1) {c : Nat × α} (hc : c ∈ m) :
    Memory.read d m c.1 = c.2 := by
  induction m with
  | nil => cases hc
  | cons e m ih =>
    obtain ⟨k, x⟩ := e
    rw [List.pairwise_cons] at h
    rw [Memory.read_cons]
    rcases List.mem_cons.1 hc with rfl | hc
    · simp
    · have := h.1 c hc
      rw [if_neg (by omega)]
      exact ih h.2 hc

omit [DecidableEq α] in
/-- An address that reads as something is listed. -/
theorem Memory.mem_of_read_ne {d : α} {m : Memory α} {a : Nat} (h : Memory.read d m a ≠ d) :
    (a, Memory.read d m a) ∈ m := by
  induction m with
  | nil => exact absurd rfl h
  | cons c m ih =>
    obtain ⟨k, x⟩ := c
    rw [Memory.read_cons] at h ⊢
    by_cases hk : k = a
    · simp [hk]
    · rw [if_neg hk] at h ⊢
      exact List.mem_cons_of_mem _ (ih h)

/-- Two canonical memories that read alike are equal data. -/
theorem Memory.ext_of_read {d : α} : ∀ {m m' : Memory α}, Memory.wf d m = true → Memory.wf d m' = true →
    (∀ a, Memory.read d m a = Memory.read d m' a) → m = m' := by
  have key : ∀ {m m' : Memory α}, Memory.wf d m = true → Memory.wf d m' = true →
      (∀ a, Memory.read d m a = Memory.read d m' a) → m ⊆ m' := by
    intro m m' h h' hr c hc
    rw [Memory.wf_iff] at h
    have h1 := Memory.read_of_mem d h.1 hc
    have h2 : Memory.read d m' c.1 = c.2 := by rw [← hr, h1]
    have h3 := Memory.mem_of_read_ne (d := d) (m := m') (a := c.1) (by rw [h2]; exact h.2 c hc)
    rwa [h2] at h3
  intro m m' h h' hr
  have hsub := key h h' hr
  have hsub' := key h' h fun a => (hr a).symm
  rw [Memory.wf_iff] at h h'
  have hnd : ∀ {l : Memory α}, (l.Pairwise fun c c' => c.1 < c'.1) → l.Nodup := fun hl =>
    hl.imp fun {a b} hab heq => by rw [heq] at hab; exact absurd hab (lt_irrefl _)
  have hp : m.Perm m' := (List.perm_ext_iff_of_nodup (hnd h.1) (hnd h'.1)).2 fun c => ⟨fun hc => hsub hc, fun hc => hsub' hc⟩
  exact hp.eq_of_pairwise (fun a b _ _ h1 h2 => absurd (lt_trans h1 h2) (lt_irrefl _)) h.1 h'.1

/-! ### The five spaces -/

section
variable (s : State) (a b : Nat)

theorem State.readTc_writeTc (p : Pixel) : (s.writeTc a p).readTc b = if a = b then p else s.readTc b :=
  Memory.read_write ..

theorem State.readPal_writePal (p : Pixel) : (s.writePal a p).readPal b = if a = b then p else s.readPal b :=
  Memory.read_write ..

theorem State.readIdx_writeIdx (x : Byte) : (s.writeIdx a x).readIdx b = if a = b then x else s.readIdx b :=
  Memory.read_write ..

theorem State.readBuf_writeBuf (x : Byte) : (s.writeBuf a x).readBuf b = if a = b then x else s.readBuf b :=
  Memory.read_write ..

end

/-- Distinct node and pixel have distinct entries (10_state.md R41). -/
theorem trieAddr_inj {c c' : Nat} {v v' : Byte} : trieAddr c v = trieAddr c' v' ↔ c = c' ∧ v = v' := by
  unfold trieAddr
  constructor
  · intro h
    have := v.isLt
    have := v'.isLt
    exact ⟨by omega, BitVec.eq_of_toNat_eq (by omega)⟩
  · rintro ⟨rfl, rfl⟩; rfl

theorem trieAddr_lt {c : Nat} (v : Byte) (h : c < 4096) : trieAddr c v < trieEntries := by
  unfold trieAddr trieEntries
  have := v.isLt
  omega

theorem State.readTrie_writeTrie (s : State) (c c' : Nat) (v v' : Byte) (e : Option Code) :
    (s.writeTrie c v e).readTrie c' v' = if c = c' ∧ v = v' then e else s.readTrie c' v' := by
  unfold State.readTrie State.writeTrie
  rw [Memory.read_write]
  simp only [trieAddr_inj]

end Sys2Proof.Machine
end

