-- ==== Sys2Proof/Laws/Ops.lean ====
section
/-! SUPPORT. The sequencing of a command's parts, its end, and the induction over a scan, each said once. -/

namespace Sys2Proof.Machine

@[simp] theorem Done.ok_bind (s : State) (f : State → Done) : (Done.ok s).bind f = f s := rfl

@[simp] theorem Done.raised_bind (e : ErrCode) (i : Word) (s : State) (f : State → Done) :
    (Done.raised e i s).bind f = .raised e i s := rfl

@[simp] theorem Done.stopped_bind (r : Fault) (f : State → Done) : (Done.stopped r).bind f = .stopped r := rfl

theorem Done.bind_assoc (x : Done) (f g : State → Done) : (x.bind f).bind g = x.bind fun s => (f s).bind g := by
  cases x <;> rfl

/-- A part that ends well went through both its halves. -/
theorem Done.bind_eq_ok {x : Done} {f : State → Done} {t : State} :
    x.bind f = .ok t ↔ ∃ s, x = .ok s ∧ f s = .ok t := by cases x <;> simp

theorem Done.bind_eq_raised {x : Done} {f : State → Done} {e : ErrCode} {i : Word} {t : State} :
    x.bind f = .raised e i t ↔ x = .raised e i t ∨ ∃ s, x = .ok s ∧ f s = .raised e i t := by cases x <;> simp

theorem Done.bind_eq_stopped {x : Done} {f : State → Done} {r : Fault} :
    x.bind f = .stopped r ↔ x = .stopped r ∨ ∃ s, x = .ok s ∧ f s = .stopped r := by cases x <;> simp

@[simp] theorem finish_ok (s : State) : finish (.ok s) = .next { s with pc := s.pc + 1#32 } := rfl

@[simp] theorem finish_raised (e : ErrCode) (i : Word) (s : State) : finish (.raised e i s) = .next (s.takeFault e i) := rfl

@[simp] theorem finish_stopped (r : Fault) : finish (.stopped r) = .fault r := rfl

/-- Everything a command's end can be: completed, or a fault taken. -/
theorem finish_eq_next {x : Done} {t : State} :
    finish x = .next t ↔
      (∃ s, x = .ok s ∧ t = { s with pc := s.pc + 1#32 }) ∨ ∃ e i s, x = .raised e i s ∧ t = s.takeFault e i := by
  cases x <;> simp [finish, eq_comm]

theorem finish_ne_refused (x : Done) (r : Refusal) : finish x ≠ .refused r := by cases x <;> simp [finish]

/-- What every way a part can end has in common: `P` of the state it ends or raises in, and no stop. -/
def Done.Sat (P : State → Prop) : Done → Prop
  | .ok s => P s
  | .raised _ _ s => P s
  | .stopped _ => False

/-- The same, a stop allowed. -/
def Done.SatIfRuns (P : State → Prop) : Done → Prop
  | .ok s => P s
  | .raised _ _ s => P s
  | .stopped _ => True

@[simp] theorem Done.sat_ok (P : State → Prop) (s : State) : (Done.ok s).Sat P = P s := rfl
@[simp] theorem Done.sat_raised (P : State → Prop) (e : ErrCode) (i : Word) (s : State) :
    (Done.raised e i s).Sat P = P s := rfl
@[simp] theorem Done.sat_stopped (P : State → Prop) (r : Fault) : (Done.stopped r).Sat P = False := rfl
@[simp] theorem Done.satIfRuns_ok (P : State → Prop) (s : State) : (Done.ok s).SatIfRuns P = P s := rfl
@[simp] theorem Done.satIfRuns_raised (P : State → Prop) (e : ErrCode) (i : Word) (s : State) :
    (Done.raised e i s).SatIfRuns P = P s := rfl
@[simp] theorem Done.satIfRuns_stopped (P : State → Prop) (r : Fault) : (Done.stopped r).SatIfRuns P = True := rfl

theorem Done.Sat.mono {P Q : State → Prop} (h : ∀ s, P s → Q s) {x : Done} (hx : x.Sat P) : x.Sat Q := by
  cases x
  · exact h _ hx
  · exact h _ hx
  · exact hx

theorem Done.SatIfRuns.mono {P Q : State → Prop} (h : ∀ s, P s → Q s) {x : Done} (hx : x.SatIfRuns P) :
    x.SatIfRuns Q := by
  cases x
  · exact h _ hx
  · exact h _ hx
  · exact hx

theorem Done.Sat.bind {P Q : State → Prop} {x : Done} {f : State → Done} (hx : x.Sat P) (hPQ : ∀ s, P s → Q s)
    (hf : ∀ s, P s → (f s).Sat Q) : (x.bind f).Sat Q := by
  cases x
  · exact hf _ hx
  · exact hPQ _ hx
  · exact hx

theorem Done.SatIfRuns.bind {P Q : State → Prop} {x : Done} {f : State → Done} (hx : x.SatIfRuns P)
    (hPQ : ∀ s, P s → Q s) (hf : ∀ s, P s → (f s).SatIfRuns Q) : (x.bind f).SatIfRuns Q := by
  cases x
  · exact hf _ hx
  · exact hPQ _ hx
  · trivial

@[simp] theorem forFrom_zero (a : Nat) (body : Nat → State → Done) (s : State) : forFrom 0 a body s = .ok s := rfl

theorem forFrom_succ (n a : Nat) (body : Nat → State → Done) (s : State) :
    forFrom (n + 1) a body s = (body a s).bind (forFrom n (a + 1) body) := rfl

/-- A scan over `n + m` elements is a scan over `n` and then one over `m`. -/
theorem forFrom_add (n m a : Nat) (body : Nat → State → Done) (s : State) :
    forFrom (n + m) a body s = (forFrom n a body s).bind (forFrom m (a + n) body) := by
  induction n generalizing a s with
  | zero => simp
  | succ n ih =>
    rw [Nat.add_right_comm, forFrom_succ, forFrom_succ, Done.bind_assoc]
    congr 1; funext s'
    rw [ih, Nat.add_assoc a 1 n, Nat.add_comm 1 n]

/-- What every pass of the body keeps, the scan keeps. -/
theorem forFrom_sat {P : State → Prop} {body : Nat → State → Done} {n a : Nat}
    (hb : ∀ k s, a ≤ k → k < a + n → P s → (body k s).Sat P) {s : State} (hs : P s) : (forFrom n a body s).Sat P := by
  induction n generalizing a s with
  | zero => exact hs
  | succ n ih =>
    rw [forFrom_succ]
    exact (hb a s le_rfl (by omega) hs).bind (fun _ h => h)
      fun s' hs' => ih (fun k s h1 h2 => hb k s (by omega) (by omega)) hs'

theorem forFrom_satIfRuns {P : State → Prop} {body : Nat → State → Done} {n a : Nat}
    (hb : ∀ k s, a ≤ k → k < a + n → P s → (body k s).SatIfRuns P) {s : State} (hs : P s) :
    (forFrom n a body s).SatIfRuns P := by
  induction n generalizing a s with
  | zero => exact hs
  | succ n ih =>
    rw [forFrom_succ]
    exact (hb a s le_rfl (by omega) hs).bind (fun _ h => h)
      fun s' hs' => ih (fun k s h1 h2 => hb k s (by omega) (by omega)) hs'

/-- A scan that raises and stops nowhere ends well, with what holds after each element. `I k` holds before element `k`. -/
theorem forFrom_ok {I : Nat → State → Prop} {body : Nat → State → Done} {n a : Nat}
    (hb : ∀ k s, a ≤ k → k < a + n → I k s → ∃ t, body k s = .ok t ∧ I (k + 1) t) {s : State} (hs : I a s) :
    ∃ t, forFrom n a body s = .ok t ∧ I (a + n) t := by
  induction n generalizing a s with
  | zero => exact ⟨s, rfl, hs⟩
  | succ n ih =>
    obtain ⟨s', h1, h2⟩ := hb a s le_rfl (by omega) hs
    obtain ⟨t, h3, h4⟩ := ih (fun k s h1 h2 => hb k s (by omega) (by omega)) h2
    exact ⟨t, by rw [forFrom_succ, h1, Done.ok_bind, h3], by rwa [show a + (n + 1) = a + 1 + n by omega]⟩

/-- The checks of the commands, each a test that passes or raises. -/
theorem frameCheck_of_ok {w : Word} {s : State} (h : s.frameOk = true) : frameCheck w s = .ok s := by simp [frameCheck, h]

theorem frameCheck_of_not {w : Word} {s : State} (h : s.frameOk = false) : frameCheck w s = .raised .cfg w s := by
  simp [frameCheck, h]

theorem maxsizeCheck_of_ok {w : Word} {s : State} (h : s.maxsizeOk = true) : maxsizeCheck w s = .ok s := by
  simp [maxsizeCheck, h]

theorem maxsizeCheck_of_not {w : Word} {s : State} (h : s.maxsizeOk = false) : maxsizeCheck w s = .raised .cfg w s := by
  simp [maxsizeCheck, h]

theorem depthCheck_of_ok {w : Word} {s : State} (h : s.depthOk = true) : depthCheck w s = .ok s := by simp [depthCheck, h]

theorem depthCheck_of_not {w : Word} {s : State} (h : s.depthOk = false) : depthCheck w s = .raised .cfg w s := by
  simp [depthCheck, h]

theorem regionCheck_of_ok {w : Word} {s : State} (h : s.regionOk = true) : regionCheck w s = .ok s := by
  simp [regionCheck, h]

theorem regionCheck_of_not {w : Word} {s : State} (h : s.regionOk = false) : regionCheck w s = .raised .region w s := by
  simp [regionCheck, h]

end Sys2Proof.Machine
end

