-- ==== Sys2Proof/Laws/Operands.lean ====
section
/-! SUPPORT. The configuration registers and the checks: what each test says in the rules' words. -/

namespace Sys2Proof.Machine

@[simp] theorem CfgRegs.get_put_same (x : CfgRegs) (r : CfgReg) (v : Half) : (x.put r v).get r = v := by cases r <;> rfl

theorem CfgRegs.get_put_other (x : CfgRegs) {r r' : CfgReg} (v : Half) (h : r ≠ r') : (x.put r v).get r' = x.get r' := by
  cases r <;> cases r' <;> first | rfl | exact absurd rfl h

theorem CfgRegs.put_maskStep (x : CfgRegs) (v : Half) : x.put .maskStep v = { x with maskStep := v } := rfl

theorem State.frameOk_iff (s : State) : s.frameOk = true ↔ s.FrameLegal := by
  unfold State.frameOk State.FrameLegal State.frameArea
  simp only [Bool.and_eq_true, decide_eq_true_eq, ne_eq, ← BitVec.toNat_inj, BitVec.toNat_ofNat]
  omega

theorem State.maxsizeOk_iff (s : State) : s.maxsizeOk = true ↔ s.MaxsizeLegal := by
  unfold State.maxsizeOk State.MaxsizeLegal legalMaxsizes
  exact List.contains_iff_mem

theorem State.depthOk_iff (s : State) : s.depthOk = true ↔ s.DepthLegal := by
  unfold State.depthOk State.DepthLegal
  simp only [Bool.and_eq_true, decide_eq_true_eq]

theorem State.regionOk_iff (s : State) : s.regionOk = true ↔ s.RegionLegal := by
  unfold State.regionOk State.RegionLegal
  simp only [Bool.and_eq_true, decide_eq_true_eq, ne_eq, ← BitVec.toNat_inj, BitVec.toNat_ofNat]
  omega

theorem frameCheck_legal {w : Word} {s : State} (h : s.FrameLegal) : frameCheck w s = .ok s :=
  frameCheck_of_ok ((State.frameOk_iff s).2 h)

theorem frameCheck_illegal {w : Word} {s : State} (h : ¬ s.FrameLegal) : frameCheck w s = .raised .cfg w s :=
  frameCheck_of_not (by rw [← Bool.not_eq_true, State.frameOk_iff]; exact h)

theorem maxsizeCheck_legal {w : Word} {s : State} (h : s.MaxsizeLegal) : maxsizeCheck w s = .ok s :=
  maxsizeCheck_of_ok ((State.maxsizeOk_iff s).2 h)

theorem maxsizeCheck_illegal {w : Word} {s : State} (h : ¬ s.MaxsizeLegal) : maxsizeCheck w s = .raised .cfg w s :=
  maxsizeCheck_of_not (by rw [← Bool.not_eq_true, State.maxsizeOk_iff]; exact h)

theorem depthCheck_legal {w : Word} {s : State} (h : s.DepthLegal) : depthCheck w s = .ok s :=
  depthCheck_of_ok ((State.depthOk_iff s).2 h)

theorem depthCheck_illegal {w : Word} {s : State} (h : ¬ s.DepthLegal) : depthCheck w s = .raised .cfg w s :=
  depthCheck_of_not (by rw [← Bool.not_eq_true, State.depthOk_iff]; exact h)

theorem regionCheck_legal {w : Word} {s : State} (h : s.RegionLegal) : regionCheck w s = .ok s :=
  regionCheck_of_ok ((State.regionOk_iff s).2 h)

theorem regionCheck_illegal {w : Word} {s : State} (h : ¬ s.RegionLegal) : regionCheck w s = .raised .region w s :=
  regionCheck_of_not (by rw [← Bool.not_eq_true, State.regionOk_iff]; exact h)

/-- A legal `MAXSIZE` is between 2 and 256 (00_scope.md R6). -/
theorem State.MaxsizeLegal.bounds {s : State} (h : s.MaxsizeLegal) :
    2 ≤ s.regs.maxsize.toNat ∧ s.regs.maxsize.toNat ≤ 256 := by
  unfold State.MaxsizeLegal at h
  simp only [List.mem_cons, List.not_mem_nil, or_false] at h
  omega

/-- The index of a register names it, and only the nine indexes do (10_state.md R21). -/
theorem cfgRegOf_isSome_iff (ra : Byte) : (cfgRegOf ra).isSome = raLegal ra := by
  revert ra; decide

/-- A masked channel has its low bits cleared (41_palette_quantizer.md R137). -/
theorem and_channelMask : ∀ (k : Fin 9) (c : Byte), c &&& channelMask k.val = clearLow k.val c := by decide

theorem maskPixel_channelMask (p : Pixel) {k : Nat} (hk : k ≤ 8) : maskPixel p (channelMask k) = clearLowPixel k p := by
  have h := and_channelMask ⟨k, by omega⟩
  unfold maskPixel clearLowPixel
  exact congr (congr (congrArg Pixel.mk (h p.r)) (h p.g)) (h p.b)

end Sys2Proof.Machine
end

