-- ==== Sys2Proof/Laws/Packer.lean ====
section
/-! SUPPORT. Everything the packer's operations can do, said once per operation. -/

namespace Sys2Proof.Machine

theorem SameButPacker.refl (s : State) : SameButPacker s s := rfl

theorem SameButPacker.trans {s t u : State} (h : SameButPacker s t) (h' : SameButPacker t u) : SameButPacker s u := by
  unfold SameButPacker at *
  rw [h'.trans (congrArg (fun x => { x with nbits := u.nbits, partialByte := u.partialByte, bufCnt := u.bufCnt, buf := u.buf, out := u.out }) h)]

theorem Memory.wf_writeBuf {s : State} (h : Memory.wf unwrittenByte s.buf = true) (a : Nat) (b : Byte) :
    Memory.wf unwrittenByte (s.writeBuf a b).buf = true := Memory.wf_write h a b

/-- `BUF` in canonical form and inside its space. -/
def State.BufOk (s : State) : Prop := Memory.wf unwrittenByte s.buf = true ∧ Memory.within bufEntries s.buf = true

/-- A byte that does not complete a sub-block. -/
theorem pushByte_of_lt {b : Byte} {s : State} (h : s.bufCnt.toNat < 254) :
    pushByte b s = .ok { s.writeBuf s.bufCnt.toNat b with bufCnt := BitVec.ofNat 8 (s.bufCnt.toNat + 1) } := by
  unfold pushByte bufEntries
  rw [if_neg (by omega), if_neg (by omega)]

/-- The 255th byte: the full sub-block goes to `OUT`. -/
theorem pushByte_of_eq {b : Byte} {s : State} (h : s.bufCnt.toNat = 254) :
    pushByte b s =
      .ok { s.writeBuf 254 b with
        bufCnt := 0#8, out := s.out ++ 0xFF#8 :: (s.writeBuf 254 b).bufBytes 255 } := by
  unfold pushByte bufEntries
  rw [if_neg (by omega), if_pos (by omega), h]
  rfl

/-- `PushByte` with room in `BUF`: it ends well and touches only the packer. -/
theorem pushByte_spec {s : State} (b : Byte) (h : s.bufCnt.toNat ≤ 254) :
    ∃ t, pushByte b s = .ok t ∧ SameButPacker s t ∧ t.nbits = s.nbits ∧ t.partialByte = s.partialByte
      ∧ t.bufCnt.toNat ≤ 254 ∧ t.bufCnt.toNat = (s.bufCnt.toNat + 1) % 255
      ∧ s.out <+: t.out ∧ (s.BufOk → t.BufOk) := by
  rcases Nat.lt_or_ge s.bufCnt.toNat 254 with h1 | h1
  · refine ⟨_, pushByte_of_lt h1, rfl, rfl, rfl, ?_, ?_, List.prefix_rfl, fun hb => ?_⟩
    · simp only [BitVec.toNat_ofNat]; omega
    · simp only [BitVec.toNat_ofNat]; omega
    · exact ⟨Memory.wf_write hb.1 _ _, Memory.within_write hb.2 (by unfold bufEntries; omega) _⟩
  · have h2 : s.bufCnt.toNat = 254 := by omega
    refine ⟨_, pushByte_of_eq h2, rfl, rfl, rfl, by simp, by simp [h2], List.prefix_append _ _, fun hb => ?_⟩
    exact ⟨Memory.wf_write hb.1 _ _, Memory.within_write hb.2 (by unfold bufEntries; omega) _⟩

theorem pushByte_stops {s : State} (b : Byte) (h : ¬ s.bufCnt.toNat ≤ 254) :
    pushByte b s = .stopped (.outsideSpace .buf s.bufCnt.toNat) := by
  unfold pushByte bufEntries
  rw [if_pos (by omega)]

/-- The loop of `Emit`: it ends well, touches only the packer, pushes `k` bytes and keeps the rest. -/
theorem drain_spec {k acc n : Nat} {s : State} (h : s.bufCnt.toNat ≤ 254) :
    ∃ t, drain k acc n s = .ok t ∧ SameButPacker s t
      ∧ t.partialByte = BitVec.ofNat 8 (acc >>> (8 * k)) ∧ t.nbits = BitVec.ofNat 3 (n - 8 * k)
      ∧ t.bufCnt.toNat ≤ 254 ∧ t.bufCnt.toNat = (s.bufCnt.toNat + k) % 255
      ∧ s.out <+: t.out ∧ (s.BufOk → t.BufOk) := by
  induction k generalizing acc n s with
  | zero => exact ⟨_, rfl, rfl, by simp, by simp, h, by simp; omega, List.prefix_rfl, id⟩
  | succ k ih =>
    obtain ⟨u, h1, h2, -, -, h5, h6, h7, h8⟩ := pushByte_spec (BitVec.ofNat 8 acc) h
    obtain ⟨t, g1, g2, g3, g4, g5, g6, g7, g8⟩ := ih (acc := acc >>> 8) (n := n - 8) h5
    refine ⟨t, by rw [drain, h1, Done.ok_bind, g1], h2.trans g2, ?_, ?_, g5, ?_, h7.trans g7, fun hb => g8 (h8 hb)⟩
    · rw [g3, ← Nat.shiftRight_add, show 8 + 8 * k = 8 * (k + 1) by omega]
    · rw [g4, Nat.sub_sub, show 8 + 8 * k = 8 * (k + 1) by omega]
    · rw [g6, h6]; omega

theorem emit_stops {c wd : Nat} {s : State} (h : ¬ (1 ≤ wd ∧ wd ≤ 12 ∧ c < 2 ^ wd)) :
    emit c wd s = .stopped (.codeTooWide c wd) := by
  unfold emit
  rw [if_neg h]

/-- What fits into the accumulator of `Emit` (00_scope.md R10). -/
theorem emit_acc_lt {p nb c wd : Nat} (hp : p < 2 ^ nb) (hc : c < 2 ^ wd) : p ||| c <<< nb < 2 ^ (nb + wd) := by
  refine Nat.or_lt_two_pow (hp.trans_le (Nat.pow_le_pow_right (by omega) (by omega))) ?_
  rw [Nat.shiftLeft_eq, Nat.add_comm, Nat.pow_add]
  exact (Nat.mul_lt_mul_right (Nat.two_pow_pos nb)).2 hc

/-- `Emit` within its precondition: it ends well, touches only the packer and leaves it in order. -/
theorem emit_spec {c wd : Nat} {s : State} (h1 : 1 ≤ wd) (h2 : wd ≤ 12) (h3 : c < 2 ^ wd)
    (h : s.bufCnt.toNat ≤ 254) :
    ∃ t, emit c wd s = .ok t ∧ SameButPacker s t ∧ t.bufCnt.toNat ≤ 254 ∧ s.out <+: t.out
      ∧ t.nbits.toNat = (s.nbits.toNat + wd) % 8
      ∧ t.bufCnt.toNat = (s.bufCnt.toNat + (s.nbits.toNat + wd) / 8) % 255
      ∧ (s.PackerOk → t.PackerOk) ∧ (s.BufOk → t.BufOk) := by
  unfold emit
  rw [if_pos ⟨h1, h2, h3⟩]
  obtain ⟨t, g1, g2, g3, g4, g5, g6, g7, g8⟩ := drain_spec (k := (s.nbits.toNat + wd) / 8)
    (acc := s.partialByte.toNat ||| c <<< s.nbits.toNat) (n := s.nbits.toNat + wd) h
  have hn : t.nbits.toNat = (s.nbits.toNat + wd) % 8 := by
    rw [g4, BitVec.toNat_ofNat]
    omega
  refine ⟨t, g1, g2, g5, g7, hn, g6, fun hp => ⟨?_, g5⟩, g8⟩
  have hacc := emit_acc_lt hp.1 h3
  rw [hn, g3, BitVec.toNat_ofNat, Nat.shiftRight_eq_div_pow]
  refine (Nat.mod_le _ _).trans_lt ?_
  rw [Nat.div_lt_iff_lt_mul (Nat.two_pow_pos _), ← Nat.pow_add]
  convert hacc using 2
  omega

/-- `Emit` that ends well was within its precondition and had room. -/
theorem emit_eq_ok {c wd : Nat} {s t : State} (h : emit c wd s = .ok t) : 1 ≤ wd ∧ wd ≤ 12 ∧ c < 2 ^ wd := by
  by_contra hc
  rw [emit_stops hc] at h
  cases h

/-- `Emit` raises nothing (43_code_packer.md R172). -/
theorem emit_ne_raised {c wd : Nat} {s : State} (e : ErrCode) (i : Word) (t : State) : emit c wd s ≠ .raised e i t := by
  have hd : ∀ (k acc n : Nat) (s : State), drain k acc n s ≠ .raised e i t := by
    intro k
    induction k with
    | zero => intro acc n s h; cases h
    | succ k ih =>
      intro acc n s h
      rw [drain] at h
      rcases Done.bind_eq_raised.1 h with h | ⟨u, -, h⟩
      · unfold pushByte at h
        split at h
        · cases h
        · split at h <;> cases h
      · exact ih _ _ _ h
  unfold emit
  split
  · exact hd _ _ _ _
  · intro h; cases h

theorem closeBlocks_out (s : State) : s.out <+: (closeBlocks s).out := by
  unfold closeBlocks
  split
  · exact List.prefix_append _ _
  · simp only [State.outBytes_out, State.flush_out, List.append_assoc]
    exact List.prefix_append _ _

theorem closeBlocks_bufCnt (s : State) : (closeBlocks s).bufCnt = 0#8 := by
  unfold closeBlocks
  split
  · next h => simpa using h
  · simp

theorem closeBlocks_same (s : State) : SameButPacker s (closeBlocks s) := by
  unfold closeBlocks
  split <;> rfl

theorem closeBlocks_nbits (s : State) : (closeBlocks s).nbits = s.nbits := by unfold closeBlocks; split <;> rfl

theorem closeBlocks_partialByte (s : State) : (closeBlocks s).partialByte = s.partialByte := by
  unfold closeBlocks; split <;> rfl

theorem closeBlocks_buf (s : State) : (closeBlocks s).buf = s.buf := by unfold closeBlocks; split <;> rfl

/-- `Close`: it ends well, touches only the packer and leaves it empty (43_code_packer.md R176). -/
theorem packClose_spec {s : State} (h : s.bufCnt.toNat ≤ 254) (hp : s.nbits = 0#3 → s.partialByte = 0#8) :
    ∃ t, packClose s = .ok t ∧ SameButPacker s t ∧ t.nbits = 0#3 ∧ t.partialByte = 0#8 ∧ t.bufCnt = 0#8
      ∧ s.out <+: t.out ∧ (s.BufOk → t.BufOk) := by
  unfold packClose closePartial State.BufOk
  split
  · next hz =>
    refine ⟨_, rfl, closeBlocks_same s, ?_, ?_, closeBlocks_bufCnt s, closeBlocks_out s, ?_⟩
    · rw [closeBlocks_nbits, hz]
    · rw [closeBlocks_partialByte, hp hz]
    · rw [closeBlocks_buf]; exact id
  · obtain ⟨u, h1, h2, -, -, -, -, h7, h8⟩ := pushByte_spec s.partialByte h
    rw [h1]
    simp only [Done.ok_bind]
    refine ⟨_, rfl, h2.trans (SameButPacker.trans ?_ (closeBlocks_same _)), ?_, ?_, closeBlocks_bufCnt _,
      h7.trans (closeBlocks_out { u with partialByte := 0#8, nbits := 0#3 }), fun hb => ?_⟩
    · rfl
    · rw [closeBlocks_nbits]
    · rw [closeBlocks_partialByte]
    · rw [closeBlocks_buf]; exact h8 hb

end Sys2Proof.Machine
end

