-- ==== Sys2Proof/Laws/Lzw.lean ====
section
/-! SUPPORT. Everything the parts of the LZW commands can do, said once per part. -/

namespace Sys2Proof.Machine

theorem SameButLzw.refl (s : State) : SameButLzw s s := rfl

theorem SameButLzw.trans {s t u : State} (h : SameButLzw s t) (h' : SameButLzw t u) : SameButLzw s u := by
  unfold SameButLzw at *
  rw [h'.trans (congrArg (fun x => { x with
    lzwD := u.lzwD, codeWidth := u.codeWidth, nextCode := u.nextCode, cur := u.cur, trie := u.trie
    active := u.active, freeCtr := u.freeCtr
    nbits := u.nbits, partialByte := u.partialByte, bufCnt := u.bufCnt, buf := u.buf, out := u.out }) h)]

theorem SameButPacker.sameButLzw {s t : State} (h : SameButPacker s t) : SameButLzw s t := by
  unfold SameButPacker at h
  unfold SameButLzw
  rw [h]

section
variable (s : State)

@[simp] theorem State.beginFrame_lzwD : s.beginFrame.lzwD = BitVec.ofNat 4 s.regs.depth.toNat := rfl
@[simp] theorem State.beginFrame_trie : s.beginFrame.trie = [] := rfl
@[simp] theorem State.beginFrame_nextCode :
    s.beginFrame.nextCode = BitVec.ofNat 13 (firstCode (BitVec.ofNat 4 s.regs.depth.toNat).toNat) := rfl
@[simp] theorem State.beginFrame_codeWidth :
    s.beginFrame.codeWidth = BitVec.ofNat 4 ((BitVec.ofNat 4 s.regs.depth.toNat).toNat + 1) := rfl
@[simp] theorem State.beginFrame_cur : s.beginFrame.cur = rootCur := rfl
@[simp] theorem State.beginFrame_active : s.beginFrame.active = true := rfl
@[simp] theorem State.beginFrame_out : s.beginFrame.out = s.out := rfl
@[simp] theorem State.beginFrame_nbits : s.beginFrame.nbits = s.nbits := rfl
@[simp] theorem State.beginFrame_partialByte : s.beginFrame.partialByte = s.partialByte := rfl
@[simp] theorem State.beginFrame_bufCnt : s.beginFrame.bufCnt = s.bufCnt := rfl
@[simp] theorem State.beginFrame_buf : s.beginFrame.buf = s.buf := rfl

end

theorem State.beginFrame_same (s : State) : SameButLzw s s.beginFrame := rfl

/-- A pixel too large for the depth (42_lzw_compressor.md R155). -/
theorem pixStep_range {v : Byte} {info : Word} {s : State} (h : 2 ^ s.lzwD.toNat ≤ v.toNat) :
    pixStep v info s = .raised .pixRange info s := by
  unfold pixStep
  rw [if_pos h]

/-- The first pixel of a frame (42_lzw_compressor.md R156). -/
theorem pixStep_first {v : Byte} {info : Word} {s : State} (h : v.toNat < 2 ^ s.lzwD.toNat) (hr : s.curIsRoot = true) :
    pixStep v info s = .ok (s.curBase v) := by
  unfold pixStep
  rw [if_neg (by omega), if_pos hr]

/-- The match extends (42_lzw_compressor.md R156). -/
theorem pixStep_match {v : Byte} {info : Word} {s : State} {c : Code} (h : v.toNat < 2 ^ s.lzwD.toNat)
    (hr : s.curIsRoot = false) (hc : s.readTrie s.cur.toNat v = some c) : pixStep v info s = .ok (s.curCode c) := by
  unfold pixStep
  rw [if_neg (by omega), if_neg (by simp [hr]), hc]

/-- A miss (42_lzw_compressor.md R156). -/
theorem pixStep_miss {v : Byte} {info : Word} {s : State} (h : v.toNat < 2 ^ s.lzwD.toNat)
    (hr : s.curIsRoot = false) (hc : s.readTrie s.cur.toNat v = none) :
    pixStep v info s = (emit s.cur.toNat s.codeWidth.toNat s).bind (afterMiss v) := by
  unfold pixStep
  rw [if_neg (by omega), if_neg (by simp [hr]), hc]

theorem afterMiss_insert {v : Byte} {s : State} (h : s.nextCode.toNat < 4096) :
    afterMiss v s = .ok ((s.attach v).curBase v) := by
  unfold afterMiss maxCodes
  rw [if_pos h]

theorem afterMiss_rebuild {v : Byte} {s : State} (h : 4096 ≤ s.nextCode.toNat) :
    afterMiss v s =
      (emit (clearCode s.lzwD.toNat) s.codeWidth.toNat s).bind fun s => .ok (s.trieReset.curBase v) := by
  unfold afterMiss maxCodes
  rw [if_neg (by omega)]

/-- What `Emit` leaves alone, stops allowed: the depth, the parameters and all that is not the packer's. -/
theorem emit_satIfRuns {c wd : Nat} {s : State} : (emit c wd s).SatIfRuns fun t => SameButPacker s t ∧ s.out <+: t.out := by
  cases h : emit c wd s with
  | ok t =>
    have hd : ∀ (k acc n : Nat) (s : State), (drain k acc n s).SatIfRuns fun t => SameButPacker s t ∧ s.out <+: t.out := by
      intro k
      induction k with
      | zero => exact fun acc n s => ⟨rfl, List.prefix_rfl⟩
      | succ k ih =>
        intro acc n s
        rw [drain]
        by_cases hb : s.bufCnt.toNat ≤ 254
        · obtain ⟨u, h1, h2, -, -, -, -, h7, -⟩ := pushByte_spec (BitVec.ofNat 8 acc) hb
          rw [h1, Done.ok_bind]
          exact (ih _ _ u).mono fun t ht => ⟨h2.trans ht.1, h7.trans ht.2⟩
        · rw [pushByte_stops _ hb]; trivial
    have h2 : (emit c wd s).SatIfRuns fun t => SameButPacker s t ∧ s.out <+: t.out := by
      unfold emit
      split
      · exact hd _ _ _ _
      · trivial
    rw [h] at h2
    exact h2
  | raised e i t => exact absurd h (emit_ne_raised e i t)
  | stopped r => trivial

/-- One pixel's step, however it ends, leaves everything outside the LZW unit alone and only appends to `OUT`. -/
theorem pixStep_frame (v : Byte) (info : Word) (s : State) :
    (pixStep v info s).SatIfRuns fun t => SameButLzw s t ∧ s.out <+: t.out := by
  unfold pixStep
  split
  · exact ⟨rfl, List.prefix_rfl⟩
  · split
    · exact ⟨rfl, List.prefix_rfl⟩
    · split
      · exact ⟨rfl, List.prefix_rfl⟩
      · refine Done.SatIfRuns.bind (P := fun t => SameButLzw s t ∧ s.out <+: t.out)
          (emit_satIfRuns.mono fun t ht => ⟨ht.1.sameButLzw, ht.2⟩) (fun _ h => h) fun u hu => ?_
        unfold afterMiss
        split
        · exact ⟨hu.1.trans rfl, hu.2⟩
        · refine Done.SatIfRuns.bind (P := fun t => SameButLzw s t ∧ s.out <+: t.out)
            (emit_satIfRuns.mono fun t ht => ⟨hu.1.trans ht.1.sameButLzw, hu.2.trans ht.2⟩) (fun _ h => h)
            fun w hw => ⟨hw.1.trans rfl, hw.2⟩

end Sys2Proof.Machine
end

