-- ==== Sys2Proof/Laws/Palette.lean ====
section
/-! SUPPORT. Everything the parts of the palette commands can do, said once per part. -/

namespace Sys2Proof.Machine

theorem SameButPalette.refl (s : State) : SameButPalette s s := rfl

theorem SameButPalette.trans {s t u : State} (h : SameButPalette s t) (h' : SameButPalette t u) : SameButPalette s u := by
  unfold SameButPalette at *
  rw [h'.trans (congrArg (fun x => { x with
    regs := { x.regs with maskStep := u.regs.maskStep }, ovf := u.ovf, palSize := u.palSize, tc := u.tc, pal := u.pal
    idx := u.idx }) h)]

/-- The search finds the lowest matching position (41_palette_quantizer.md R138). -/
theorem State.palFind_eq_some {s : State} {size m : Nat} {p : Pixel} :
    s.palFind size p = some m ↔ m < size ∧ s.readPal m = p ∧ ∀ m' < m, s.readPal m' ≠ p := by
  unfold State.palFind
  rw [List.find?_range_eq_some]
  simp only [decide_eq_true_eq, List.mem_range, Bool.not_eq_true', decide_eq_false_iff_not]
  tauto

theorem State.palFind_eq_none {s : State} {size : Nat} {p : Pixel} :
    s.palFind size p = none ↔ ∀ m < size, s.readPal m ≠ p := by
  unfold State.palFind
  rw [List.find?_range_eq_none]
  simp only [Bool.not_eq_true', decide_eq_false_iff_not]

/-- The scan of `PBUILD` ends well; it writes `PAL`, `PAL_SIZE` and `STATUS.OVF` only. -/
theorem pbuildScan_spec (n k size : Nat) (s : State) (h : size ≤ s.regs.maxsize.toNat) (hm : s.regs.maxsize.toNat ≤ 256) :
    ∃ t, pbuildScan n k size s = .ok t
      ∧ t = { s with ovf := t.ovf, palSize := t.palSize, pal := t.pal }
      ∧ size ≤ t.palSize.toNat ∧ t.palSize.toNat ≤ s.regs.maxsize.toNat
      ∧ (∀ m, m < size ∨ s.regs.maxsize.toNat ≤ m → t.readPal m = s.readPal m)
      ∧ (Memory.wf unwrittenPixel s.pal = true → Memory.wf unwrittenPixel t.pal = true)
      ∧ (Memory.within palEntries s.pal = true → Memory.within palEntries t.pal = true) := by
  induction n generalizing k size s with
  | zero =>
    refine ⟨_, rfl, rfl, ?_, ?_, fun m _ => rfl, id, id⟩
    · simp only [State.endPass_palSize, BitVec.toNat_ofNat]; omega
    · simp only [State.endPass_palSize, BitVec.toNat_ofNat]; omega
  | succ n ih =>
    rw [pbuildScan]
    split
    · exact ih (k + 1) size s h hm
    · split
      · next hs =>
        refine ⟨_, rfl, rfl, ?_, ?_, fun m _ => rfl, id, id⟩
        · simp only [State.endPass_palSize, BitVec.toNat_ofNat]; omega
        · simp only [State.endPass_palSize, BitVec.toNat_ofNat]; omega
      · next hs =>
        obtain ⟨t, h1, h2, h3, h4, h5, h6, h7⟩ := ih (k + 1) (size + 1) (s.writePal size (s.readTc k))
          (by simp only [State.writePal_regs]; omega) (by simpa using hm)
        refine ⟨t, h1, h2, by omega, h4, fun m hm' => ?_, fun hw => h6 (Memory.wf_write hw _ _),
          fun hw => h7 (Memory.within_write hw (by unfold palEntries; omega) _)⟩
        rw [h5 m (by simp only [State.writePal_regs]; omega), State.readPal_writePal, if_neg (by omega)]

/-- A pass of the Palette Builder ends well and writes only `PAL`, `PAL_SIZE` and `STATUS.OVF`. -/
theorem pbuildPass_spec {s : State} (hm : s.MaxsizeLegal) :
    ∃ t, pbuildPass s = .ok t
      ∧ t = { s with ovf := t.ovf, palSize := t.palSize, pal := t.pal }
      ∧ 1 ≤ t.palSize.toNat ∧ t.palSize.toNat ≤ s.regs.maxsize.toNat
      ∧ (∀ m, s.regs.maxsize.toNat ≤ m → t.readPal m = s.readPal m)
      ∧ (Memory.wf unwrittenPixel s.pal = true → Memory.wf unwrittenPixel t.pal = true)
      ∧ (Memory.within palEntries s.pal = true → Memory.within palEntries t.pal = true) := by
  have hb := hm.bounds
  obtain ⟨t, h1, h2, h3, h4, h5, h6, h7⟩ := pbuildScan_spec (s.frameArea - 1) 1 1 (s.writePal 0 (s.readTc 0))
    (by simp only [State.writePal_regs]; omega) (by simpa using hb.2)
  refine ⟨t, h1, h2, h3, h4, fun m hm' => ?_, fun hw => h6 (Memory.wf_write hw _ _),
    fun hw => h7 (Memory.within_write hw (by decide) _)⟩
  rw [h5 m (.inr hm'), State.readPal_writePal, if_neg (by omega)]

theorem pbuildBody_legal {w : Word} {s : State} (hf : s.FrameLegal) (hm : s.MaxsizeLegal) :
    pbuildBody w s = pbuildPass s := by
  unfold pbuildBody
  rw [frameCheck_legal hf, Done.ok_bind, maxsizeCheck_legal hm, Done.ok_bind]

/-- `t` is `s` with the first `n` pixels masked. -/
def MaskedUpTo (s : State) (n : Nat) (t : State) : Prop :=
  t = { s with tc := t.tc }
    ∧ (∀ k, t.readTc k = if k < n then maskPixel (s.readTc k) (channelMask s.regs.maskStep.toNat) else s.readTc k)
    ∧ (Memory.wf unwrittenPixel s.tc = true → Memory.wf unwrittenPixel t.tc = true)
    ∧ (s.frameArea ≤ s.params.frameCap →
        Memory.within s.params.frameCap s.tc = true → Memory.within s.params.frameCap t.tc = true)

/-- The frame masked in place: every pixel of the frame, nothing else (41_palette_quantizer.md R136). -/
theorem maskFrame_spec (s : State) : ∃ t, maskFrame s = .ok t ∧ MaskedUpTo s s.frameArea t := by
  have hstep : ∀ k u, 0 ≤ k → k < 0 + s.frameArea → MaskedUpTo s k u →
      ∃ t, Done.ok (u.writeTc k (maskPixel (u.readTc k) (channelMask u.regs.maskStep.toNat))) = .ok t
        ∧ MaskedUpTo s (k + 1) t := by
    intro k u _ hk ⟨hu1, hu2, hu3, hu4⟩
    refine ⟨_, rfl, by rw [hu1]; rfl, fun j => ?_, fun hw => Memory.wf_write (hu3 hw) _ _, fun ha hw => ?_⟩
    · rw [State.readTc_writeTc, hu2 j, hu2 k, show u.regs = s.regs by rw [hu1]]
      by_cases hj : k = j
      · subst hj; simp
      · rw [if_neg hj]
        exact if_congr (by omega) rfl rfl
    · exact Memory.within_write (hu4 ha hw) (by omega) _
  obtain ⟨t, h1, h2⟩ := forFrom_ok hstep (s := s) ⟨rfl, by simp, id, fun _ => id⟩
  rw [Nat.zero_add] at h2
  exact ⟨t, h1, h2⟩

theorem pmaskBody_legal {w : Word} {s : State} (hf : s.FrameLegal) (hm : s.regs.maskStep.toNat < 8) :
    pmaskBody w s = maskFrame (s.setCfg .maskStep (BitVec.ofNat 16 (s.regs.maskStep.toNat + 1))) := by
  unfold pmaskBody maskLimCheck
  rw [frameCheck_legal hf, Done.ok_bind, if_neg (by omega), Done.ok_bind]

theorem pmaskBody_limit {w : Word} {s : State} (hf : s.FrameLegal) (hm : 8 ≤ s.regs.maskStep.toNat) :
    pmaskBody w s = .raised .maskLim w s := by
  unfold pmaskBody maskLimCheck
  rw [frameCheck_legal hf, Done.ok_bind, if_pos hm, Done.raised_bind]

theorem pindexPixel_hit {k m : Nat} {s : State} (hp : s.palSize.toNat ≤ 256)
    (h : s.palFind s.palSize.toNat (s.readTc k) = some m) :
    pindexPixel k s = .ok (s.writeIdx k (BitVec.ofNat 8 m)) := by
  unfold pindexPixel palEntries
  rw [if_neg (by omega), h]

theorem pindexPixel_miss {k : Nat} {s : State} (hp : s.palSize.toNat ≤ 256)
    (h : s.palFind s.palSize.toNat (s.readTc k) = none) :
    pindexPixel k s = .raised .noMatch (BitVec.ofNat 32 k) s := by
  unfold pindexPixel palEntries
  rw [if_neg (by omega), h]

/-- The scan of `PINDEX`, however it ends, writes `IDX` only. -/
theorem pindexScan_frame (n a : Nat) (s : State) (hp : s.palSize.toNat ≤ 256) :
    (forFrom n a pindexPixel s).Sat fun t => t = { s with idx := t.idx }
      ∧ (∀ b, ¬ (a ≤ b ∧ b < a + n) → t.readIdx b = s.readIdx b)
      ∧ (Memory.wf unwrittenByte s.idx = true → Memory.wf unwrittenByte t.idx = true)
      ∧ (a + n ≤ s.params.frameCap →
          Memory.within s.params.frameCap s.idx = true → Memory.within s.params.frameCap t.idx = true) := by
  refine forFrom_sat (fun k u h1 h2 ⟨hu1, hu2, hu3, hu4⟩ => ?_) ⟨rfl, fun _ _ => rfl, id, fun _ => id⟩
  have hpu : u.palSize.toNat ≤ 256 := by rw [hu1]; exact hp
  cases hf : u.palFind u.palSize.toNat (u.readTc k) with
  | none => rw [pindexPixel_miss hpu hf]; exact ⟨hu1, hu2, hu3, hu4⟩
  | some m =>
    rw [pindexPixel_hit hpu hf]
    refine ⟨by rw [hu1]; rfl, fun b hb => ?_, fun hw => Memory.wf_write (hu3 hw) _ _,
      fun ha hw => Memory.within_write (hu4 ha hw) (by omega) _⟩
    rw [State.readIdx_writeIdx, if_neg (by rintro rfl; exact hb ⟨h1, h2⟩), hu2 b hb]

end Sys2Proof.Machine
end

