-- ==== Sys2Proof/Laws/PerInstr.lean ====
section
/-! SUPPORT. Statements about every instruction as syntax, one lemma per constructor. `OpcodeRow`: the word of an instruction
matches the mask and pattern of its row of spec/opcode_table.json. -/

namespace Sys2Proof.Laws.OpcodeRow

/-- The `mask` and `match` of an instruction's row of spec/opcode_table.json. -/
def row : Instr → Word × Word
  | .nop => (0xFFFFFFFF#32, 0x00000000#32)
  | .set _ _ => (0xFF000000#32, 0x01000000#32)
  | .pbuild => (0xFFFFFFFF#32, 0x10000000#32)
  | .pmask => (0xFFFFFFFF#32, 0x11000000#32)
  | .pindex => (0xFFFFFFFF#32, 0x12000000#32)
  | .quant => (0xFFFFFFFF#32, 0x13000000#32)
  | .lzwbegin => (0xFFFFFFFF#32, 0x20000000#32)
  | .lzwpix _ => (0xFFFFFF00#32, 0x21000000#32)
  | .lzwend => (0xFFFFFFFF#32, 0x22000000#32)
  | .lzwenc => (0xFFFFFFFF#32, 0x23000000#32)

/-- `word & mask = match` for the instruction's own row. -/
def Statement (i : Instr) : Prop := encode i &&& (row i).1 = (row i).2

theorem and_ones (x : Byte) : x &&& 0xFF#8 = x := BitVec.and_allOnes

/-- The opcode byte of a word, kept by a mask of its upper byte. -/
theorem mask_high_byte (opc ra : Byte) (imm : Half) :
    wordOf opc ra imm &&& 0xFF000000#32 = wordOf opc 0#8 0#16 := by
  rw [show (0xFF000000#32 : Word) = wordOf 0xFF#8 0#8 0#16 by decide]
  unfold wordOf
  rw [BitVec.and_append, BitVec.and_append, BitVec.and_zero, BitVec.and_zero, and_ones]

/-- All but the low byte of a word, kept by its mask. -/
theorem mask_low_byte (opc ra hi lo : Byte) :
    wordOf opc ra (hi ++ lo) &&& 0xFFFFFF00#32 = wordOf opc ra (hi ++ 0#8) := by
  rw [show (0xFFFFFF00#32 : Word) = wordOf 0xFF#8 0xFF#8 (0xFF#8 ++ 0#8) by decide]
  unfold wordOf
  rw [BitVec.and_append, BitVec.and_append, BitVec.and_append, BitVec.and_zero, and_ones, and_ones, and_ones]

theorem nop : Statement .nop := by unfold Statement; decide
theorem set (ra : Byte) (imm : Half) : Statement (.set ra imm) :=
  (mask_high_byte 0x01#8 ra imm).trans (show wordOf 0x01#8 0#8 0#16 = 0x01000000#32 by decide)
theorem pbuild : Statement .pbuild := by unfold Statement; decide
theorem pmask : Statement .pmask := by unfold Statement; decide
theorem pindex : Statement .pindex := by unfold Statement; decide
theorem quant : Statement .quant := by unfold Statement; decide
theorem lzwbegin : Statement .lzwbegin := by unfold Statement; decide
theorem lzwpix (v : Byte) : Statement (.lzwpix v) :=
  (mask_low_byte 0x21#8 0#8 0#8 v).trans (show wordOf 0x21#8 0#8 (0#8 ++ 0#8) = 0x21000000#32 by decide)
theorem lzwend : Statement .lzwend := by unfold Statement; decide
theorem lzwenc : Statement .lzwenc := by unfold Statement; decide

end Sys2Proof.Laws.OpcodeRow
end

