-- ==== Sys2Proof/Tests/Slice0.lean ====
section
/-! SUPPORT. Tests whose expected results are the spec's worked examples and vectors (95_test_vectors.md and the examples of
the command rules), and a witness for the hypotheses of every statement that has some. -/

namespace Sys2Proof.Tests
open Sys2Proof.Machine

/-! ### Small states -/

/-- The state an outcome gives, the reset state where it gives none. -/
def after (o : Host.Outcome State Fault Refusal) : State :=
  match o with
  | .next t => t
  | .fault _ => State.reset
  | .refused _ => State.reset

/-- One step with the given word in the queue. -/
def stepWord (w : Word) (s : State) : State := after (step { s with cmdq := [w] })

/-- A pixel. -/
def px (r g b : Nat) : Pixel := { r := BitVec.ofNat 8 r, g := BitVec.ofNat 8 g, b := BitVec.ofNat 8 b }

/-- Reset with frame, palette size and depth set. -/
def configured (w h maxsize depth : Nat) : State :=
  { State.reset with
    regs := { CfgRegs.reset with
      frameW := BitVec.ofNat 16 w, frameH := BitVec.ofNat 16 h, maxsize := BitVec.ofNat 16 maxsize
      depth := BitVec.ofNat 16 depth } }

/-- The region registers set. -/
def withRegion (s : State) (x y w h : Nat) : State :=
  { s with regs := { s.regs with
      regX := BitVec.ofNat 16 x, regY := BitVec.ofNat 16 y, regW := BitVec.ofNat 16 w, regH := BitVec.ofNat 16 h } }

/-- Pixels in `TC` from element 0 on. -/
def withTc (s : State) (ps : List Pixel) : State :=
  ps.zipIdx.foldl (fun s p => s.writeTc p.2 p.1) s

/-- Colours in `PAL` from element 0 on, and `PAL_SIZE` their number. -/
def withPal (s : State) (ps : List Pixel) : State :=
  { ps.zipIdx.foldl (fun s p => s.writePal p.2 p.1) s with palSize := BitVec.ofNat 9 ps.length }

/-- Indexes in `IDX` from element 0 on. -/
def withIdx (s : State) (vs : List Nat) : State :=
  vs.zipIdx.foldl (fun s v => s.writeIdx v.2 (BitVec.ofNat 8 v.1)) s

/-- An open frame of depth `d` with given width, next code and node, its trie empty, the packer empty. -/
def openAt (d width next cur : Nat) : State :=
  { State.reset with
    active := true, lzwD := BitVec.ofNat 4 d, codeWidth := BitVec.ofNat 4 width, nextCode := BitVec.ofNat 13 next
    cur := BitVec.ofNat 13 cur }

/-- The packer's registers set, `n` bytes equal to `f k` in `BUF`. -/
def packed (nbits part n : Nat) (f : Nat → Nat) : State :=
  { (List.range n).foldl (fun s k => s.writeBuf k (BitVec.ofNat 8 (f k))) State.reset with
    nbits := BitVec.ofNat 3 nbits, partialByte := BitVec.ofNat 8 part, bufCnt := BitVec.ofNat 8 n }

/-- A packer operation's registers and output. -/
def packerOf : Done → Option (Nat × Nat × Nat × List Byte)
  | .ok s => some (s.nbits.toNat, s.partialByte.toNat, s.bufCnt.toNat, s.out)
  | .raised _ _ _ => none
  | .stopped _ => none

/-! ### WellFormed: the one check, and an ill-formed term it refuses -/

theorem smoke_set_index_nine_is_ill_formed : (Instr.set 9#8 0#16).wellFormed = false := by decide

/-! ### Decode: a word per constructor, written out from 30_encoding.md R90 to R92 -/

theorem test_decode_nop : decode 0b00000000_00000000_0000000000000000#32 = .ok .nop := by decide
theorem test_decode_set : decode 0b00000001_00000111_0000000100000000#32 = .ok (.set 7#8 256#16) := by decide
theorem test_decode_pbuild : decode 0b00010000_00000000_0000000000000000#32 = .ok .pbuild := by decide
theorem test_decode_pmask : decode 0b00010001_00000000_0000000000000000#32 = .ok .pmask := by decide
theorem test_decode_pindex : decode 0b00010010_00000000_0000000000000000#32 = .ok .pindex := by decide
theorem test_decode_quant : decode 0b00010011_00000000_0000000000000000#32 = .ok .quant := by decide
theorem test_decode_lzwbegin : decode 0b00100000_00000000_0000000000000000#32 = .ok .lzwbegin := by decide
theorem test_decode_lzwpix : decode 0b00100001_00000000_0000000010000001#32 = .ok (.lzwpix 129#8) := by decide
theorem test_decode_lzwend : decode 0b00100010_00000000_0000000000000000#32 = .ok .lzwend := by decide
theorem test_decode_lzwenc : decode 0b00100011_00000000_0000000000000000#32 = .ok .lzwenc := by decide
/-- 95_test_vectors.md K6, K12, K13. -/
theorem test_decode_refuses :
    decode 0x01090000#32 = .error .illReg ∧ decode 0x21000100#32 = .error .illCmd ∧ decode 0x21010000#32 = .error .illCmd := by
  decide

/-! ### Commands -/

/-- 95_test_vectors.md K1. -/
theorem test_nop : (stepWord 0x00000000#32 State.reset).pc = 1#32 := by decide

/-- 95_test_vectors.md K3: a non-zero unused field. -/
theorem test_nop_with_ra :
    let t := stepWord 0x00010000#32 State.reset
    t.pc = 0#32 ∧ t.statusWord = 1#16 ∧ t.err = 1#8 ∧ t.errInfo = 0x00010000#32 := by decide

/-- 95_test_vectors.md K5. -/
theorem test_set_mask_step :
    let t := stepWord 0x0108FFFF#32 State.reset
    t.regs = { CfgRegs.reset with maskStep := 0xFFFF#16 } ∧ t.pc = 1#32 := by decide

/-- 95_test_vectors.md K6. -/
theorem test_set_bad_index :
    let t := stepWord 0x01090000#32 State.reset
    t.statusWord = 1#16 ∧ t.err = 2#8 ∧ t.errInfo = 0x01090000#32 ∧ t.pc = 0#32 := by decide

/-- 95_test_vectors.md Q1. -/
theorem test_pbuild_exact :
    let t := stepWord 0x10000000#32 (withTc (configured 4 1 2 0) [px 1 1 1, px 2 2 2, px 1 1 1, px 2 2 2])
    t.ovf = false ∧ t.palSize = 2#9 ∧ t.readPal 0 = px 1 1 1 ∧ t.readPal 1 = px 2 2 2 := by decide

/-- 95_test_vectors.md Q2. -/
theorem test_pbuild_overflow :
    let s := withTc (configured 4 1 2 0) [px 1 1 1, px 2 2 2, px 3 3 3, px 4 4 4]
    let t := stepWord 0x10000000#32 (s.writePal 2 (px 9 9 9))
    t.statusWord = 2#16 ∧ t.palSize = 2#9 ∧ t.readPal 1 = px 2 2 2 ∧ t.readPal 2 = px 9 9 9 := by decide

/-- The example of 41_palette_quantizer.md R136. -/
theorem test_pmask :
    let t := stepWord 0x11000000#32 ((withTc (configured 1 1 0 0) [px 200 100 50]).setCfg .maskStep 1#16)
    t.regs.maskStep = 2#16 ∧ t.readTc 0 = px 200 100 48 := by decide

/-- 95_test_vectors.md Q3, the ninth run. -/
theorem test_pmask_ninth :
    let t := stepWord 0x11000000#32 ((withTc (configured 1 1 0 0) [px 7 7 7]).setCfg .maskStep 8#16)
    t.err = 9#8 ∧ t.errInfo = 0x11000000#32 ∧ t.regs.maskStep = 8#16 ∧ t.readTc 0 = px 7 7 7 := by decide

/-- 95_test_vectors.md Q4: the lowest of two equal entries. -/
theorem test_pindex_first_match :
    let s := withPal (withTc (configured 2 1 0 0) [px 5 5 5, px 6 6 6]) [px 6 6 6, px 5 5 5, px 5 5 5]
    let t := stepWord 0x12000000#32 s
    t.readIdx 0 = 1#8 ∧ t.readIdx 1 = 0#8 ∧ t.fault = false := by decide

/-- 95_test_vectors.md Q5. -/
theorem test_pindex_no_match :
    let s := withPal (withTc (configured 3 1 0 0) [px 5 5 5, px 6 6 6, px 7 7 7]) [px 5 5 5, px 7 7 7]
    let t := stepWord 0x12000000#32 (withIdx s [3, 3, 3])
    t.err = 8#8 ∧ t.errInfo = 1#32 ∧ t.readIdx 0 = 0#8 ∧ t.readIdx 1 = 3#8 ∧ t.pc = 0#32 := by decide

/-- 95_test_vectors.md P2, its `QUANT`. -/
theorem test_quant_three_retries :
    let t := stepWord 0x13000000#32
      (withTc (configured 2 2 2 0) [px 10 20 30, px 11 20 30, px 12 21 30, px 200 100 50])
    t.regs.maskStep = 3#16 ∧ t.palSize = 2#9 ∧ t.readTc 3 = px 200 96 48 ∧ t.idx.map (·.2) = [1#8] ∧ t.ovf = false := by
  decide

/-- 95_test_vectors.md Q7: 256 x 257 exceeds `FRAME_CAP`. -/
theorem test_quant_frame_too_large :
    let t := stepWord 0x13000000#32 (configured 256 257 2 0)
    t.err = 3#8 ∧ t.errInfo = 0x13000000#32 := by decide

/-- 95_test_vectors.md L18: at depth 7 the clear code fills a byte. -/
theorem test_lzwbegin_depth_seven :
    let t := stepWord 0x20000000#32 (configured 0 0 0 7)
    t.readBuf 0 = 0x80#8 ∧ t.bufCnt = 1#8 ∧ t.nbits = 0#3 ∧ t.codeWidth = 8#4 ∧ t.nextCode = 130#13 := by decide

/-- 95_test_vectors.md K16. -/
theorem test_lzwbegin_depth_zero : (stepWord 0x20000000#32 State.reset).err = 3#8 := by decide

/-- The example of 42_lzw_compressor.md R156. -/
theorem test_lzwpix_widens :
    let t := stepWord 0x21000002#32 (openAt 2 3 8 0)
    t.codeWidth = 4#4 ∧ t.readTrie 0 2#8 = some 8#12 ∧ t.nextCode = 9#13 ∧ t.cur = 2#13 ∧ t.nbits = 3#3 := by decide

/-- 95_test_vectors.md P4: a pixel out of range. -/
theorem test_lzwpix_range :
    let t := stepWord 0x21000005#32 (openAt 2 3 6 1)
    t.statusWord = 5#16 ∧ t.err = 6#8 ∧ t.errInfo = 0x21000005#32 ∧ t.cur = 1#13 := by decide

/-- The example of 42_lzw_compressor.md R157. -/
theorem test_lzwend :
    let s := { openAt 2 3 6 0 with nbits := 3#3, partialByte := 0x04#8 }
    (stepWord 0x22000000#32 s).out = [0x02#8, 0x44#8, 0x01#8, 0x00#8] := by decide

/-- 95_test_vectors.md section 2: `LZWEND` with no pixel. -/
theorem test_lzwend_empty :
    let t := stepWord 0x22000000#32 (openAt 2 3 6 0x1000)
    t.statusWord = 5#16 ∧ t.err = 7#8 ∧ t.errInfo = 0x22000000#32 := by decide

/-- 95_test_vectors.md P3: a region of two rows of two in a frame of four columns. -/
theorem test_lzwenc_region :
    let s := withRegion (withIdx (configured 4 3 0 2) [0, 1, 2, 3, 3, 1, 1, 0, 2, 1, 2, 0]) 1 1 2 2
    let t := stepWord 0x23000000#32 s
    t.out = [0x02#8, 0x8C#8, 0x55#8, 0x00#8] ∧ t.nextCode = 8#13 ∧ t.codeWidth = 3#4 ∧ t.active = false := by decide

/-- 95_test_vectors.md L16. -/
theorem test_lzwenc_range :
    let t := stepWord 0x23000000#32 (withRegion (withIdx (configured 3 1 0 2) [1, 4, 0]) 0 0 3 1)
    t.err = 6#8 ∧ t.errInfo = 1#32 ∧ t.statusWord = 5#16 ∧ t.cur = 1#13 ∧ t.partialByte = 4#8 ∧ t.out = [] := by decide

/-! ### The packer (95_test_vectors.md section 5) -/

theorem test_emit_B5 : packerOf (emit 0xFFF 12 (packed 7 0x55 0 id)) = some (3, 0x07, 2, []) := by decide

theorem test_emit_B7 :
    packerOf (emit 0x1FF 9 (packed 0 0 254 id)) =
      some (1, 0x01, 0, 0xFF#8 :: ((List.range 254).map (BitVec.ofNat 8) ++ [0xFF#8])) := by decide +kernel

theorem test_close_B8 :
    packerOf (packClose (packed 1 0x01 1 fun _ => 0x44)) = some (0, 0, 0, [0x02#8, 0x44#8, 0x01#8, 0x00#8]) := by decide

theorem test_close_B10 :
    packerOf (packClose (packed 2 0x02 254 fun _ => 0)) =
      some (0, 0, 0, 0xFF#8 :: (List.replicate 254 0x00#8 ++ [0x02#8, 0x00#8])) := by decide +kernel

end Sys2Proof.Tests
end

