-- ==== Sys2Proof/Tests/Witnesses.lean ====
section
/-! SUPPORT. For every statement with hypotheses, and for every clause of one, a concrete state and operands that meet all of
its hypotheses together. `witness_<Statement>` or `witness_<Statement>_<clause>`; several statements may share one. -/

namespace Sys2Proof.Tests
open Sys2Proof.Machine

/-! ### Encoding and the execution cycle -/

theorem witness_DecodeOfEncodeIsInstruction : (Instr.set 8#8 0xFFFF#16).wellFormed = true := by decide

theorem witness_EncodeOfDecodeIsWord : decode 0x210000FF#32 = .ok (.lzwpix 255#8) := by decide

theorem witness_StepRunsDecodedCommand :
    ∃ (s : State) (w : Word) (rest : List Word) (i : Instr),
      s.fault = false ∧ s.cmdq = w :: rest ∧ decode w = .ok i :=
  ⟨{ State.reset with cmdq := [0x23000000#32, 0#32] }, 0x23000000#32, [0#32], .lzwenc, by decide⟩

theorem witness_StepTakesDecodeFault :
    ∃ (s : State) (w : Word) (rest : List Word) (e : DecodeError),
      s.fault = false ∧ s.cmdq = w :: rest ∧ decode w = .error e :=
  ⟨{ State.reset with cmdq := [0x01090000#32] }, 0x01090000#32, [], .illReg, by decide⟩

theorem witness_QuiescentBlockStays_halted :
    (State.reset.takeFault .empty 0x22000000#32).fault = true ∧ State.reset.cmdq = [] := by decide

theorem witness_PcAdvancesUnlessFault :
    ∃ s t : State, s.fault = false ∧ s.cmdq = [0#32] ∧ step s = .next t ∧ s.pc = 0xFFFFFFFF#32 ∧ t.pc = 0#32 :=
  ⟨{ State.reset with cmdq := [0#32], pc := 0xFFFFFFFF#32 }, { State.reset with pc := 0#32 }, rfl, rfl, rfl, rfl, rfl⟩

theorem witness_PcAdvancesUnlessFault_fault :
    ∃ s t : State, s.fault = false ∧ s.cmdq = [1#32] ∧ step s = .next t ∧ t.fault = true :=
  ⟨{ State.reset with cmdq := [1#32] }, State.reset.takeFault .illCmd 1#32, rfl, rfl, rfl, rfl⟩

/-- An open frame of depth 2 after two pixels 0 (95_test_vectors.md L7, the row of the second pixel), a word queued. -/
def openSix : State :=
  { openAt 2 3 7 0 with trie := [(0, some 6#12)], nbits := 6#3, partialByte := 0x04#8, cmdq := [0x21000000#32] }

/-- The invariant holds in a state with an open frame: the premise of `RunOfQueueEnds`, `StepKeepsInvariantAndNeverStops`
and `HostMovesKeepInvariant`. -/
theorem witness_invariant_open_frame : openSix.Inv := by
  refine ⟨?_, ?_, ?_, ?_, ?_, ?_, ?_⟩
  · unfold State.MemOk; decide
  · unfold State.FaultOk; decide
  · unfold State.PackerOk; decide
  · intro h; exact absurd h (by decide)
  · intro _; unfold State.IsNode; decide
  · intro _
    refine ⟨fun c hc k hk => ?_, ?_⟩
    · obtain rfl : c = (0, some 6#12) := by simpa [openSix] using hc
      obtain rfl : (6#12 : Code) = k := Option.some.inj hk
      unfold State.IsNode; decide
    · unfold firstCode; decide
  · decide

theorem witness_HostMovesKeepInvariant :
    ∃ t : State, hostMove (.append 0#32) openSix = .next t := ⟨_, rfl⟩

/-! ### Control commands -/

theorem witness_NopOnlyAdvancesPc : (0x0000FFFF#32).extractLsb' 24 8 = 0x00#8 ∧ (0x0000FFFF#32 : Word) ≠ 0#32 := by decide

theorem witness_SetWritesOneRegister : (8#8).toNat ≤ 8 ∧ 8 < (9#8).toNat := by decide

/-! ### The palette quantizer -/

/-- A frame of two pixels, two colours, legal in everything. -/
def twoPixels : State := withRegion (withTc (configured 2 1 2 2) [px 1 2 3, px 9 9 9]) 0 0 2 1

theorem witness_FrameCheckFaults :
    ¬ (configured 256 257 2 1).FrameLegal ∧ (configured 256 257 2 1).active = false ∧ (configured 256 257 2 1).DepthLegal := by
  unfold State.FrameLegal State.DepthLegal; decide

theorem witness_FrameCheckFaults_zero_side : ¬ (configured 0 1 2 8).FrameLegal ∧ (configured 0 1 2 8).DepthLegal := by
  unfold State.FrameLegal State.DepthLegal; decide

theorem witness_MaxsizeCheckFaults :
    (configured 256 256 512 0).FrameLegal ∧ ¬ (configured 256 256 512 0).MaxsizeLegal := by
  unfold State.FrameLegal State.MaxsizeLegal; decide

theorem witness_PbuildCollectsDistinctColours : twoPixels.FrameLegal ∧ twoPixels.MaxsizeLegal := by
  unfold State.FrameLegal State.MaxsizeLegal; decide

theorem witness_PbuildPaletteIsExact :
    ∃ s t : State, s.fault = false ∧ exec .pbuild s = .next t ∧ t.fault = false ∧ t.ovf = false :=
  ⟨twoPixels, after (exec .pbuild twoPixels), by decide, rfl, by decide, by decide⟩

theorem witness_PmaskMasksFrameInPlace :
    (twoPixels.FrameLegal ∧ twoPixels.regs.maskStep.toNat < 8)
      ∧ ((twoPixels.setCfg .maskStep 8#16).FrameLegal ∧ 8 ≤ (twoPixels.setCfg .maskStep 8#16).regs.maskStep.toNat) := by
  unfold State.FrameLegal; decide

theorem witness_RepeatedMasksEqualOneMask :
    twoPixels.fault = false ∧ twoPixels.FrameLegal ∧ twoPixels.regs.maskStep = 0#16 ∧ 8 ≤ 8 := by
  unfold State.FrameLegal; decide

theorem witness_PindexFindsLowestMatch_hit :
    ∃ s : State, s.FrameLegal ∧ s.palSize.toNat ≤ 256
      ∧ ∀ k, k < s.frameArea → ∃ m, m < s.palSize.toNat ∧ s.readPal m = s.readTc k :=
  ⟨withPal twoPixels [px 9 9 9, px 1 2 3], by unfold State.FrameLegal; decide, by decide, by decide⟩

theorem witness_PindexFindsLowestMatch_miss :
    ∃ (s : State) (k0 : Nat), s.FrameLegal ∧ s.palSize.toNat ≤ 256 ∧ k0 < s.frameArea
      ∧ (∀ m, m < s.palSize.toNat → s.readPal m ≠ s.readTc k0)
      ∧ ∀ k, k < k0 → ∃ m, m < s.palSize.toNat ∧ s.readPal m = s.readTc k :=
  ⟨withPal twoPixels [px 1 2 3], 1, by unfold State.FrameLegal; decide, by decide, by decide, by decide, by decide⟩

/-- The boundary `PAL_SIZE = 256` of the hit: the one pixel equals the last entry of a full palette. -/
def fullPalette (v : Nat) : State :=
  { withTc (configured 1 1 256 0) [px 1 2 v] with pal := [(255, px 1 2 3)], palSize := 256#9 }

theorem witness_PindexFindsLowestMatch_hit_full :
    (fullPalette 3).FrameLegal ∧ (fullPalette 3).palSize.toNat = 256
      ∧ ∀ k, k < (fullPalette 3).frameArea →
          ∃ m, m < (fullPalette 3).palSize.toNat ∧ (fullPalette 3).readPal m = (fullPalette 3).readTc k := by
  refine ⟨by unfold State.FrameLegal; decide, by decide, fun k hk => ⟨255, by decide, ?_⟩⟩
  have : k = 0 := Nat.lt_one_iff.1 hk
  subst this; decide

/-- The boundary `PAL_SIZE = 256` of the miss. -/
theorem witness_PindexFindsLowestMatch_miss_full :
    (fullPalette 4).FrameLegal ∧ (fullPalette 4).palSize.toNat = 256 ∧ 0 < (fullPalette 4).frameArea
      ∧ ∀ m, m < (fullPalette 4).palSize.toNat → (fullPalette 4).readPal m ≠ (fullPalette 4).readTc 0 := by
  unfold State.FrameLegal; decide +kernel

/-- The premise of `PindexStopsBeyondPalette`. -/
theorem witness_PindexStopsBeyondPalette :
    ∃ s : State, s.FrameLegal ∧ 256 < s.palSize.toNat :=
  ⟨{ twoPixels with palSize := 257#9 }, by unfold State.FrameLegal; decide, by decide⟩

theorem witness_PindexAfterPbuild_overflow :
    ∃ s t : State, s.fault = false ∧ exec .pbuild s = .next t ∧ t.fault = false ∧ t.ovf = true :=
  ⟨withTc (configured 3 1 2 0) [px 1 1 1, px 2 2 2, px 3 3 3],
    after (exec .pbuild (withTc (configured 3 1 2 0) [px 1 1 1, px 2 2 2, px 3 3 3])), by decide, rfl, by decide, by decide⟩

theorem witness_QuantConverges : twoPixels.FrameLegal ∧ twoPixels.MaxsizeLegal := witness_PbuildCollectsDistinctColours

theorem witness_PbuildAndPindexAreIdempotent :
    ∃ s t : State, s.Inv ∧ s.fault = false ∧ exec .pbuild s = .next t ∧ t.fault = false := by
  refine ⟨twoPixels, after (exec .pbuild twoPixels), ⟨?_, ?_, ?_, ?_, ?_, ?_, ?_⟩, by decide, rfl, by decide⟩
  · unfold State.MemOk; decide
  · unfold State.FaultOk; decide
  · unfold State.PackerOk; decide
  · unfold State.ClosedOk; decide
  · intro h; exact absurd h (by decide)
  · intro h; exact absurd h (by decide)
  · decide

theorem witness_PbuildAndPindexAreIdempotent_pindex :
    ∃ s t : State, s.Inv ∧ s.fault = false ∧ exec .pindex s = .next t ∧ t.fault = false := by
  refine ⟨withPal twoPixels [px 9 9 9, px 1 2 3], after (exec .pindex (withPal twoPixels [px 9 9 9, px 1 2 3])),
    ⟨?_, ?_, ?_, ?_, ?_, ?_, ?_⟩, by decide, rfl, by decide⟩
  · unfold State.MemOk; decide
  · unfold State.FaultOk; decide
  · unfold State.PackerOk; decide
  · unfold State.ClosedOk; decide
  · intro h; exact absurd h (by decide)
  · intro h; exact absurd h (by decide)
  · decide

/-! ### The packer -/

theorem witness_EmitAppendsCodeBits :
    1 ≤ 12 ∧ 12 ≤ 12 ∧ 0xFFF < 2 ^ 12 ∧ (packed 7 0x55 254 id).PackerOk := by unfold State.PackerOk; decide +kernel

theorem witness_PushByteFlushesAt255 :
    (packed 0 0 253 id).bufCnt.toNat < 254 ∧ (packed 0 0 254 id).bufCnt.toNat = 254
      ∧ (packed 0 0 255 id).bufCnt.toNat = 255 := by decide +kernel

theorem witness_CloseEndsImageData : (packed 2 0x02 254 fun _ => 0).PackerOk := by unfold State.PackerOk; decide +kernel

/-! ### The LZW compressor -/

theorem witness_LzwbeginOpensFrame :
    (configured 0 0 0 8).active = false ∧ (configured 0 0 0 8).DepthLegal ∧ (configured 0 0 0 8).nbits = 0#3
      ∧ (configured 0 0 0 8).partialByte = 0#8 ∧ (configured 0 0 0 8).bufCnt = 0#8 := by
  unfold State.DepthLegal; decide

theorem witness_LzwbeginOpensFrame_faults :
    (openAt 2 3 6 0).active = true ∧ (configured 0 0 0 9).active = false ∧ ¬ (configured 0 0 0 9).DepthLegal := by
  unfold State.DepthLegal; decide

theorem witness_LzwpixFaults :
    State.reset.active = false ∧ (openAt 2 3 6 1).active = true ∧ 2 ^ (openAt 2 3 6 1).lzwD.toNat ≤ (4#8).toNat := by decide

theorem witness_LzwpixFirstPixelAndMatch :
    (openAt 2 3 6 0x1000).active = true ∧ (3#8).toNat < 2 ^ (openAt 2 3 6 0x1000).lzwD.toNat
      ∧ (openAt 2 3 6 0x1000).cur = 0x1000#13 := by decide

theorem witness_LzwpixFirstPixelAndMatch_match :
    openSix.active = true ∧ (0#8).toNat < 2 ^ openSix.lzwD.toNat ∧ openSix.cur.toNat < 4096
      ∧ openSix.readTrie openSix.cur.toNat 0#8 = some 6#12 := by decide

theorem witness_LzwpixMissInsertsCode :
    ∃ (v : Byte) (s : State), s.active = true ∧ v.toNat < 2 ^ s.lzwD.toNat ∧ s.cur.toNat < 4096
      ∧ s.readTrie s.cur.toNat v = none ∧ s.nextCode.toNat < 4096 ∧ 1 ≤ s.codeWidth.toNat ∧ s.codeWidth.toNat ≤ 12
      ∧ s.cur.toNat < 2 ^ s.codeWidth.toNat ∧ s.PackerOk :=
  ⟨2#8, openAt 2 3 8 0, by unfold State.PackerOk; decide⟩

theorem witness_LzwpixMissOnFullTableRebuilds :
    ∃ (v : Byte) (s : State), s.active = true ∧ v.toNat < 2 ^ s.lzwD.toNat ∧ s.cur.toNat < 4096
      ∧ s.readTrie s.cur.toNat v = none ∧ s.nextCode.toNat = 4096 ∧ 1 ≤ s.codeWidth.toNat ∧ s.codeWidth.toNat ≤ 12
      ∧ s.cur.toNat < 2 ^ s.codeWidth.toNat ∧ s.lzwD.toNat ≤ 8 ∧ s.lzwD.toNat < s.codeWidth.toNat ∧ s.PackerOk :=
  ⟨255#8, openAt 8 12 4096 4095, by unfold State.PackerOk; decide⟩

theorem witness_LzwendClosesFrame :
    ∃ s : State, s.active = true ∧ s.cur.toNat < 2 ^ s.codeWidth.toNat ∧ 1 ≤ s.codeWidth.toNat ∧ s.codeWidth.toNat ≤ 12
      ∧ 2 ^ s.lzwD.toNat + 1 < 2 ^ s.codeWidth.toNat ∧ s.PackerOk :=
  ⟨openAt 1 2 4 1, by unfold State.PackerOk; decide⟩

theorem witness_LzwendClosesFrame_faults :
    State.reset.active = false ∧ (openAt 2 3 6 0x1000).active = true ∧ (openAt 2 3 6 0x1000).cur = 0x1000#13 := by decide

theorem witness_LzwencChecksInOrder :
    ((configured 1 1 2 0).active = false ∧ ¬ (configured 1 1 2 0).DepthLegal)
      ∧ ((configured 0 1 2 8).DepthLegal ∧ ¬ (configured 0 1 2 8).FrameLegal)
      ∧ ((withRegion (configured 4 3 2 2) 3 0 2 1).DepthLegal ∧ (withRegion (configured 4 3 2 2) 3 0 2 1).FrameLegal
        ∧ ¬ (withRegion (configured 4 3 2 2) 3 0 2 1).RegionLegal) := by
  unfold State.DepthLegal State.FrameLegal State.RegionLegal; decide

/-- A two by two region in a frame of four columns (95_test_vectors.md P3). -/
def regionFrame : State := withRegion (withIdx (configured 4 3 0 2) [0, 1, 2, 3, 3, 1, 1, 0, 2, 1, 2, 0]) 1 1 2 2

/-- The premise of `LzwencOutputIsFramedLzwStream`, `LzwencEqualsStreamedSequence` and, twice,
`LzwencOutputIsDeterminedByPixels`. -/
theorem witness_LzwencOutputIsFramedLzwStream :
    regionFrame.active = false ∧ regionFrame.DepthLegal ∧ regionFrame.FrameLegal ∧ regionFrame.RegionLegal
      ∧ regionFrame.nbits = 0#3 ∧ regionFrame.partialByte = 0#8 ∧ regionFrame.bufCnt = 0#8
      ∧ ∀ v ∈ regionFrame.regionPixels, v.toNat < 2 ^ regionFrame.regs.depth.toNat := by
  unfold State.DepthLegal State.FrameLegal State.RegionLegal; decide

theorem witness_LzwencOutputLength : ∃ t : State, exec .lzwenc regionFrame = .next t :=
  ⟨after (exec .lzwenc regionFrame), rfl⟩

/-- The same four pixels as `regionFrame`'s region, as one whole frame, with other colours and output already there. -/
def otherFrame : State :=
  { withRegion (withIdx (withTc (configured 4 1 256 2) [px 7 7 7]) [1, 1, 1, 2]) 0 0 4 1 with out := [0x00#8], pc := 5#32 }

theorem witness_LzwencOutputIsDeterminedByPixels :
    (∀ z ∈ [regionFrame, otherFrame], z.active = false ∧ z.DepthLegal ∧ z.FrameLegal ∧ z.RegionLegal
        ∧ z.nbits = 0#3 ∧ z.partialByte = 0#8 ∧ z.bufCnt = 0#8 ∧ ∀ v ∈ z.regionPixels, v.toNat < 2 ^ z.regs.depth.toNat)
      ∧ regionFrame.params.leadingClear = otherFrame.params.leadingClear
      ∧ regionFrame.regs.depth = otherFrame.regs.depth ∧ regionFrame.regionPixels = otherFrame.regionPixels := by
  unfold State.DepthLegal State.FrameLegal State.RegionLegal; decide

theorem witness_LzwencPixelRangeFault :
    ∃ (s : State) (before : List Nat) (a : Nat) (rest : List Nat), s.active = false ∧ s.DepthLegal ∧ s.FrameLegal
      ∧ s.RegionLegal ∧ s.fault = false ∧ s.bufCnt.toNat ≤ 254 ∧ s.regionAddrs = before ++ a :: rest
      ∧ (∀ b ∈ before, (s.readIdx b).toNat < 2 ^ s.regs.depth.toNat) ∧ 2 ^ s.regs.depth.toNat ≤ (s.readIdx a).toNat :=
  ⟨withRegion (withIdx (configured 3 1 0 2) [1, 4, 0]) 0 0 3 1, [0], 1, [2], by
    unfold State.DepthLegal State.FrameLegal State.RegionLegal; decide⟩

/-! ### Faults and frames -/

theorem witness_FaultsArePrecise :
    ∃ t : State, exec .lzwend State.reset = .next t ∧ State.reset.fault = false ∧ t.fault = true := ⟨_, rfl, rfl, rfl⟩

theorem witness_FaultsArePrecise_pindex :
    ∃ t : State, exec .pindex (withPal twoPixels [px 1 2 3]) = .next t ∧ t.fault = true ∧ t.err = 0x08#8 :=
  ⟨after (exec .pindex (withPal twoPixels [px 1 2 3])), rfl, by decide, by decide⟩

theorem witness_FaultsArePrecise_lzwenc :
    ∃ s t : State, exec .lzwenc s = .next t ∧ s.fault = false ∧ t.fault = true ∧ t.err = 0x06#8 :=
  ⟨withRegion (withIdx (configured 3 1 0 2) [1, 4, 0]) 0 0 3 1,
    after (exec .lzwenc (withRegion (withIdx (configured 3 1 0 2) [1, 4, 0]) 0 0 3 1)), rfl, by decide, by decide, by decide⟩

theorem witness_QuantRaisesOnlyConfigurationFaults :
    ∃ t : State, exec .quant (configured 0 1 2 0) = .next t ∧ t.fault = true := ⟨_, rfl, rfl⟩

theorem witness_FaultIsStickyUntilReset :
    ∃ s t : State, s.fault = true ∧ step s = .next t ∧ (∃ u, exec .nop s = .next u)
      ∧ ∃ u, hostMove (.writePal 255 (px 1 1 1)) s = .next u :=
  ⟨State.reset.takeFault .cfg 0#32, State.reset.takeFault .cfg 0#32, rfl, rfl, ⟨_, rfl⟩, ⟨_, rfl⟩⟩

/-- The premise of `OutIsAppendOnly`, `ConfigRegistersWrittenOnlyByNamedCommands`, `FlagsWrittenOnlyByNamedCommands`,
`UnitsLeaveEachOtherAlone` and `ParametersNeverChange`: a command of each unit that completes. -/
theorem witness_frames :
    (∃ t, exec .quant twoPixels = .next t ∧ t.fault = false) ∧ (∃ t, exec .lzwenc regionFrame = .next t ∧ t.fault = false)
      ∧ (∃ t, exec .pindex (withPal twoPixels [px 9 9 9, px 1 2 3]) = .next t ∧ t.fault = false)
      ∧ (∃ t, exec .pmask twoPixels = .next t ∧ t.fault = false)
      ∧ ∃ t, exec (.lzwpix 2#8) (openAt 2 3 8 0) = .next t ∧ t.fault = false :=
  ⟨⟨after (exec .quant twoPixels), rfl, by decide⟩, ⟨after (exec .lzwenc regionFrame), rfl, by decide⟩,
    ⟨after (exec .pindex (withPal twoPixels [px 9 9 9, px 1 2 3])), rfl, by decide⟩,
    ⟨after (exec .pmask twoPixels), rfl, by decide⟩, ⟨after (exec (.lzwpix 2#8) (openAt 2 3 8 0)), rfl, by decide⟩⟩

theorem witness_frames_host :
    ∃ t, hostMove (.writeTc 65535 (px 1 2 3)) State.reset = .next t := ⟨_, rfl⟩

theorem witness_InvariantHoldsAfterReset :
    ∃ t, hostMove (.reset { Contents.blank with tc := [(5, px 1 2 3), (5, px 0 0 0), (70000, px 1 1 1)] }) openSix = .next t :=
  ⟨_, rfl⟩

/-! ### The host's view -/

theorem witness_HostAccessByNumberWhileQuiescent :
    State.reset.quiescent = true ∧ 65535 < State.reset.params.frameCap ∧ 255 < 256 ∧ openSix.quiescent = false
      ∧ ((9 ≤ (0x0F#8).toNat ∧ (0x0F#8).toNat ≤ 15) ∧ (0x15 ≤ (0x17#8).toNat ∧ (0x17#8).toNat ≤ 0x17) ∧ 0x1F ≤ (0x1F#8).toNat) := by
  decide

/-- The last element of each space read back after a write; the premises of `HostReadsElementsAndOutputWhileQuiescent` and
`HostAccessOutsideSpaceHasNoEffect` at the two sides of the boundary (the ranges: 20_memory.md R60). -/
theorem witness_HostReadsElementsAndOutputWhileQuiescent :
    (State.reset.writePal 255 (px 1 2 3)).hostReadPal 255 = some (px 1 2 3)
      ∧ (State.reset.writeIdx 65535 7#8).hostReadIdx 65535 = some 7#8
      ∧ (State.reset.writeTc 65535 (px 1 2 3)).hostReadTc 65535 = some (px 1 2 3)
      ∧ State.reset.params.frameCap ≤ 65536 ∧ State.reset.quiescent = true ∧ openSix.quiescent = false := by decide

/-- A word queued, and a fault with an empty queue. -/
theorem witness_AppendedWordWaitsForEarlierWords :
    (∃ s t u : State, s.cmdq ≠ [] ∧ step s = .next t ∧ hostMove (.append 0#32) s = .next u)
      ∧ ∃ s t u : State, s.cmdq = [] ∧ s.fault = true ∧ step s = .next t ∧ hostMove (.append 0#32) s = .next u :=
  ⟨⟨{ State.reset with cmdq := [1#32] }, State.reset.takeFault .illCmd 1#32, _, by decide, rfl, rfl⟩,
    ⟨State.reset.takeFault .cfg 0#32, State.reset.takeFault .cfg 0#32, _, rfl, rfl, rfl, rfl⟩⟩

end Sys2Proof.Tests
end

section
/-! What each command body leaves unchanged, and from that the stickiness of `STATUS.FAULT` (10_state.md R31) and the state
after reset (10_state.md R51). -/

namespace Sys2Proof.Machine

/-! ### Putting frames together -/

/-- A check that changes nothing may be passed over. -/
theorem Done.SatIfRuns.after_check {P : State → Prop} {s : State} {x : Done} {f : State → Done}
    (hx : x.SatIfRuns (· = s)) (hs : P s) (hf : (f s).SatIfRuns P) : (x.bind f).SatIfRuns P :=
  hx.bind (fun _ h => h ▸ hs) fun _ h => h ▸ hf

/-- Two parts that each relate their start to their end, by a transitive relation, do so together. -/
theorem Done.SatIfRuns.bind_trans {R : State → State → Prop} (trans : ∀ {s t u}, R s t → R t u → R s u)
    {s : State} {x : Done} {f : State → Done} (hx : x.SatIfRuns (R s)) (hf : ∀ u, (f u).SatIfRuns (R u)) :
    (x.bind f).SatIfRuns (R s) :=
  hx.bind (fun _ h => h) fun u hu => (hf u).mono fun _ ht => trans hu ht

/-- The same for a scan. -/
theorem forFrom_satIfRuns_trans {R : State → State → Prop} (refl : ∀ s, R s s)
    (trans : ∀ {s t u}, R s t → R t u → R s u) {body : Nat → State → Done} (hb : ∀ k s, (body k s).SatIfRuns (R s))
    (n a : Nat) (s : State) : (forFrom n a body s).SatIfRuns (R s) :=
  forFrom_satIfRuns (fun k u _ _ hu => (hb k u).mono fun _ ht => trans hu ht) (refl s)

/-- A command that answers a next state ended or raised in a state of which `P` holds, and then `PC` advanced or the
fault was taken. -/
theorem Done.SatIfRuns.of_finish {P : State → Prop} {x : Done} {t : State} (hx : x.SatIfRuns P)
    (h : finish x = .next t) :
    ∃ u, P u ∧ (t = { u with pc := u.pc + 1#32 } ∨ ∃ e info, t = u.takeFault e info) := by
  obtain ⟨u, rfl, rfl⟩ | ⟨e, info, u, rfl, rfl⟩ := finish_eq_next.1 h
  · exact ⟨u, hx, .inl rfl⟩
  · exact ⟨u, hx, .inr ⟨e, info, rfl⟩⟩

/-! ### The checks change nothing -/

section
variable (w : Word) (s : State)

theorem frameCheck_frame : (frameCheck w s).SatIfRuns (· = s) := by unfold frameCheck; split <;> rfl

theorem maxsizeCheck_frame : (maxsizeCheck w s).SatIfRuns (· = s) := by unfold maxsizeCheck; split <;> rfl

theorem depthCheck_frame : (depthCheck w s).SatIfRuns (· = s) := by unfold depthCheck; split <;> rfl

theorem regionCheck_frame : (regionCheck w s).SatIfRuns (· = s) := by unfold regionCheck; split <;> rfl

theorem closedCheck_frame : (closedCheck w s).SatIfRuns (· = s) := by unfold closedCheck; split <;> rfl

theorem openCheck_frame : (openCheck w s).SatIfRuns (· = s) := by unfold openCheck; split <;> rfl

theorem emptyCheck_frame : (emptyCheck w s).SatIfRuns (· = s) := by unfold emptyCheck; split <;> rfl

theorem maskLimCheck_frame : (maskLimCheck w s).SatIfRuns (· = s) := by unfold maskLimCheck; split <;> rfl

end

/-! ### The palette commands -/

/-- `PBUILD` writes `STATUS.OVF`, `PAL_SIZE` and `PAL` only. -/
theorem pbuildBody_frame (w : Word) (s : State) :
    (pbuildBody w s).SatIfRuns fun t => t = { s with ovf := t.ovf, palSize := t.palSize, pal := t.pal } := by
  unfold pbuildBody
  refine .after_check (frameCheck_frame w s) rfl ?_
  by_cases hm : s.MaxsizeLegal
  · obtain ⟨t, ht, hsame, -⟩ := pbuildPass_spec hm
    rw [maxsizeCheck_legal hm, Done.ok_bind, ht]
    exact hsame
  · rw [maxsizeCheck_illegal hm]
    rfl

/-- `PMASK` writes `MASK_STEP` and `TC` only. -/
theorem pmaskBody_frame (w : Word) (s : State) :
    (pmaskBody w s).SatIfRuns fun t =>
      t = { s with regs := { s.regs with maskStep := t.regs.maskStep }, tc := t.tc } := by
  unfold pmaskBody
  refine .after_check (frameCheck_frame w s) rfl (.after_check (maskLimCheck_frame w s) rfl ?_)
  obtain ⟨t, ht, hsame, -⟩ := maskFrame_spec (s.setCfg .maskStep (BitVec.ofNat 16 (s.regs.maskStep.toNat + 1)))
  rw [ht, Done.satIfRuns_ok, hsame]
  rfl

/-- One pixel of `PINDEX` writes `IDX` only. -/
theorem pindexPixel_frame (k : Nat) (s : State) : (pindexPixel k s).SatIfRuns fun t => t = { s with idx := t.idx } := by
  unfold pindexPixel
  split
  · trivial
  · split <;> rfl

/-- `PINDEX` writes `IDX` only. -/
theorem pindexBody_frame (w : Word) (s : State) : (pindexBody w s).SatIfRuns fun t => t = { s with idx := t.idx } :=
  .after_check (frameCheck_frame w s) rfl <|
    forFrom_satIfRuns_trans (R := fun s t => t = { s with idx := t.idx }) (fun _ => rfl)
      (fun h h' => h'.trans (by rw [h])) pindexPixel_frame _ _ s

theorem pbuildBody_samePalette (w : Word) (s : State) : (pbuildBody w s).SatIfRuns (SameButPalette s) :=
  (pbuildBody_frame w s).mono fun t ht => by unfold SameButPalette; rw [ht]

theorem pmaskBody_samePalette (w : Word) (s : State) : (pmaskBody w s).SatIfRuns (SameButPalette s) :=
  (pmaskBody_frame w s).mono fun t ht => by unfold SameButPalette; rw [ht]

theorem pindexBody_samePalette (w : Word) (s : State) : (pindexBody w s).SatIfRuns (SameButPalette s) :=
  (pindexBody_frame w s).mono fun t ht => by unfold SameButPalette; rw [ht]

theorem quantLoop_samePalette (w : Word) (n : Nat) (s : State) : (quantLoop w n s).SatIfRuns (SameButPalette s) := by
  induction n generalizing s with
  | zero =>
    unfold quantLoop
    split
    · exact pmaskBody_samePalette w s
    · exact SameButPalette.refl s
  | succ n ih =>
    unfold quantLoop
    split
    · exact .bind_trans .trans (pmaskBody_samePalette w s) fun u => .bind_trans .trans (pbuildBody_samePalette w u) ih
    · exact SameButPalette.refl s

/-- `QUANT` writes only what the palette quantizer owns. -/
theorem quantBody_samePalette (w : Word) (s : State) : (quantBody w s).SatIfRuns (SameButPalette s) := by
  unfold quantBody
  refine .after_check (frameCheck_frame w s) (.refl s) (.after_check (maxsizeCheck_frame w s) (.refl s) ?_)
  refine .bind_trans .trans ((pbuildBody_samePalette w (s.setCfg .maskStep 0#16)).mono fun t ht => ?_) fun u =>
    .bind_trans .trans (quantLoop_samePalette w 8 u) (pindexBody_samePalette w)
  exact SameButPalette.trans (show SameButPalette s (s.setCfg .maskStep 0#16) from rfl) ht

/-! ### The LZW commands -/

/-- Only the LZW unit's and the packer's own state differs, and `OUT` has at most grown. -/
def LzwFrame (s t : State) : Prop := SameButLzw s t ∧ s.out <+: t.out

theorem LzwFrame.refl (s : State) : LzwFrame s s := ⟨.refl s, List.prefix_rfl⟩

theorem LzwFrame.trans {s t u : State} (h : LzwFrame s t) (h' : LzwFrame t u) : LzwFrame s u :=
  ⟨h.1.trans h'.1, h.2.trans h'.2⟩

theorem emit_lzwFrame (c wd : Nat) (s : State) : (emit c wd s).SatIfRuns (LzwFrame s) :=
  emit_satIfRuns.mono fun _ ⟨hsame, hout⟩ => ⟨hsame.sameButLzw, hout⟩

theorem pushByte_lzwFrame (b : Byte) (s : State) : (pushByte b s).SatIfRuns (LzwFrame s) := by
  by_cases h : s.bufCnt.toNat ≤ 254
  · obtain ⟨t, ht, hsame, -, -, -, -, hout, -⟩ := pushByte_spec b h
    rw [ht]
    exact ⟨hsame.sameButLzw, hout⟩
  · rw [pushByte_stops b h]
    trivial

theorem packClose_lzwFrame (s : State) : (packClose s).SatIfRuns (LzwFrame s) := by
  have hpartial : (closePartial s).SatIfRuns (LzwFrame s) := by
    unfold closePartial
    split
    · exact .refl s
    · exact .bind_trans .trans (pushByte_lzwFrame s.partialByte s) fun u => ⟨rfl, List.prefix_rfl⟩
  exact .bind_trans .trans hpartial fun u => ⟨(closeBlocks_same u).sameButLzw, closeBlocks_out u⟩

theorem beginBody_lzwFrame (s : State) : (beginBody s).SatIfRuns (LzwFrame s) := by
  have hbegin : LzwFrame s s.beginFrame := ⟨s.beginFrame_same, List.prefix_rfl⟩
  unfold beginBody
  split
  · exact (emit_lzwFrame _ _ _).mono fun _ => hbegin.trans
  · exact hbegin

theorem pixStep_lzwFrame (v : Byte) (info : Word) (s : State) : (pixStep v info s).SatIfRuns (LzwFrame s) :=
  pixStep_frame v info s

theorem scanRegion_lzwFrame (s : State) : (scanRegion s).SatIfRuns (LzwFrame s) :=
  forFrom_satIfRuns_trans .refl .trans
    (fun _ u => forFrom_satIfRuns_trans .refl .trans (fun _ v => pixStep_lzwFrame _ _ v) _ _ u) _ _ s

theorem endBody_lzwFrame (s : State) : (endBody s).SatIfRuns (LzwFrame s) :=
  .bind_trans .trans (emit_lzwFrame _ _ s) fun u => .bind_trans .trans (emit_lzwFrame _ _ u) fun v =>
    .bind_trans .trans (packClose_lzwFrame v) fun _ => ⟨rfl, List.prefix_rfl⟩

theorem lzwencBody_lzwFrame (w : Word) (s : State) : (lzwencBody w s).SatIfRuns (LzwFrame s) :=
  .after_check (closedCheck_frame w s) (.refl s) <| .after_check (depthCheck_frame w s) (.refl s) <|
    .after_check (frameCheck_frame w s) (.refl s) <| .after_check (regionCheck_frame w s) (.refl s) <|
      .bind_trans .trans (beginBody_lzwFrame s) fun u => .bind_trans .trans (scanRegion_lzwFrame u) endBody_lzwFrame

/-! ### Every command -/

/-- What a command does before it ends: `exec` without `finish`, see `exec_eq_finish`. -/
def commandBody : Instr → State → Done
  | .nop, s => .ok s
  | .set ra imm, s => setBody ra imm s
  | .pbuild, s => pbuildBody (encode .pbuild) s
  | .pmask, s => pmaskBody (encode .pmask) s
  | .pindex, s => pindexBody (encode .pindex) s
  | .quant, s => quantBody (encode .quant) s
  | .lzwbegin, s => (closedCheck (encode .lzwbegin) s).bind fun s => (depthCheck (encode .lzwbegin) s).bind beginBody
  | .lzwpix v, s => (openCheck (encode (.lzwpix v)) s).bind (pixStep v (encode (.lzwpix v)))
  | .lzwend, s => (openCheck (encode .lzwend) s).bind fun s => (emptyCheck (encode .lzwend) s).bind endBody
  | .lzwenc, s => lzwencBody (encode .lzwenc) s

theorem exec_eq_finish (i : Instr) (s : State) : exec i s = finish (commandBody i s) := by cases i <;> rfl

/-- What a command may change, by unit: the configuration registers, what the palette quantizer owns, or what the LZW
unit and the packer own. -/
inductive UnitFrame (s t : State) : Prop
  | control (h : t = { s with regs := t.regs })
  | palette (h : SameButPalette s t)
  | lzw (h : LzwFrame s t)

/-- Every command keeps to its unit. -/
theorem commandBody_frame (i : Instr) (s : State) : (commandBody i s).SatIfRuns (UnitFrame s) := by
  cases i with
  | nop => exact .control rfl
  | set ra imm =>
    show (setBody ra imm s).SatIfRuns _
    unfold setBody
    split <;> exact .control rfl
  | pbuild => exact (pbuildBody_samePalette _ s).mono fun _ => .palette
  | pmask => exact (pmaskBody_samePalette _ s).mono fun _ => .palette
  | pindex => exact (pindexBody_samePalette _ s).mono fun _ => .palette
  | quant => exact (quantBody_samePalette _ s).mono fun _ => .palette
  | lzwbegin =>
    exact .after_check (closedCheck_frame _ s) (.lzw (.refl s)) <|
      .after_check (depthCheck_frame _ s) (.lzw (.refl s)) <| (beginBody_lzwFrame s).mono fun _ => .lzw
  | lzwpix v =>
    exact .after_check (openCheck_frame _ s) (.lzw (.refl s)) <| (pixStep_lzwFrame v _ s).mono fun _ => .lzw
  | lzwend =>
    exact .after_check (openCheck_frame _ s) (.lzw (.refl s)) <|
      .after_check (emptyCheck_frame _ s) (.lzw (.refl s)) <| (endBody_lzwFrame s).mono fun _ => .lzw
  | lzwenc => exact (lzwencBody_lzwFrame _ s).mono fun _ => .lzw

/-! ### `STATUS.FAULT` -/

/-- No unit owns `STATUS.FAULT`. -/
theorem UnitFrame.fault {s t : State} (h : UnitFrame s t) : t.fault = s.fault := by
  cases h with
  | control h => rw [h]
  | palette h => rw [h]
  | lzw h => rw [h.1]

theorem exec_keeps_fault {i : Instr} {s t : State} (hs : s.fault = true) (h : exec i s = .next t) : t.fault = true := by
  rw [exec_eq_finish] at h
  obtain ⟨u, hu, rfl | ⟨e, info, rfl⟩⟩ := (commandBody_frame i s).of_finish h
  · exact hu.fault.trans hs
  · exact State.takeFault_fault u e info

/-- A block in fault takes no word from the queue and stays as it is (60_exceptions.md R185). -/
theorem step_of_fault {s : State} (hs : s.fault = true) : step s = .next s := by
  simp [step, sequencerTurn, State.fetch, hs]

/-- A move of the host other than reset leaves `STATUS.FAULT` alone. -/
theorem hostMove_fault {m : HostMove} {s t : State} (h : hostMove m s = .next t) :
    t.fault = s.fault ∨ ∃ c, m = .reset c := by
  cases m with
  | append w => cases h; exact .inl rfl
  | reset c => exact .inr ⟨c, rfl⟩
  | writeTc a p => obtain ⟨-, rfl⟩ := hostWrite_eq_next.1 h; exact .inl rfl
  | writePal a p => obtain ⟨-, rfl⟩ := hostWrite_eq_next.1 h; exact .inl rfl
  | writeIdx a b => obtain ⟨-, rfl⟩ := hostWrite_eq_next.1 h; exact .inl rfl

/-- Settles O41: a step in fault changes nothing, no command body writes `STATUS.FAULT` and `finish` can only set it, and
of the host's moves only reset writes it. -/
theorem faultIsStickyUntilReset : Obligations.FaultIsStickyUntilReset := by
  intro s t hs
  refine ⟨fun h => ?_, fun i h => exec_keeps_fault hs h, fun m h => (hostMove_fault h).imp_left (·.trans hs)⟩
  rw [step_of_fault hs] at h
  cases h
  exact hs

/-! ### The state after reset -/

@[simp] theorem CfgRegs.get_reset (r : CfgReg) : CfgRegs.reset.get r = 0#16 := by cases r <;> rfl

@[simp] theorem State.statusWord_launch (p : Params) (m : Contents) (n : Nat) :
    (State.launch p m n).statusWord = 0#16 := by
  simp [State.statusWord, State.launch]

/-- Settles O46: field by field of `State.launch`; the machine's own reset is the launch with the default parameters. -/
theorem resetStateIsAsSpecified : Obligations.ResetStateIsAsSpecified := by
  refine ⟨?_, Params.default, Contents.blank, 0, rfl⟩
  rintro p m n _ rfl
  exact ⟨CfgRegs.get_reset, rfl, State.statusWord_launch p m n, rfl, rfl, rfl, rfl, rfl, rfl, rfl, rfl, rfl, rfl, rfl, rfl⟩

end Sys2Proof.Machine
end

section
/-! The decoder's three answers (30_encoding.md R93, R94): each word is an illegal `SET`, or breaks a rule about its opcode or
its unused fields, or is the word of a command. -/

namespace Sys2Proof

/-- A `SET` whose `RA` names no configuration register (30_encoding.md R94). -/
def IllegalSet (w : Word) : Prop := opcField w = 0x01#8 ∧ 9 ≤ (raField w).toNat

/-- A reserved opcode, or something in a field the command does not use: `RA` of any command but `SET`, the high byte of
the immediate of `LZWPIX`, the immediate of a command without operands (30_encoding.md R94). -/
def IllegalCommand (w : Word) : Prop :=
  opcField w ∉ knownOpcodes
    ∨ (opcField w ≠ 0x01#8 ∧ raField w ≠ 0#8)
    ∨ (opcField w = 0x21#8 ∧ immHighField w ≠ 0#8)
    ∨ (opcField w ≠ 0x01#8 ∧ opcField w ≠ 0x21#8 ∧ immField w ≠ 0#16)

/-- An opcode without operand field has its command, whose word has nothing else set. -/
theorem plainCommand_of_known {opc : Byte} (hk : opc ∈ knownOpcodes) (hset : opc ≠ 0x01#8) (hpix : opc ≠ 0x21#8) :
    ∃ i, plainCommand opc = .ok i ∧ encode i = wordOf opc 0#8 0#16 := by
  simp only [knownOpcodes, List.mem_cons, List.not_mem_nil, or_false, hset, hpix, false_or] at hk
  obtain rfl | rfl | rfl | rfl | rfl | rfl | rfl | rfl := hk <;> exact ⟨_, rfl, rfl⟩

section
variable {w : Word} {i : Instr}

theorem decode_of_illegalSet (h : IllegalSet w) : decode w = .error .illReg := by
  obtain ⟨hop, hra⟩ := h
  have hill : ¬ raLegal (raField w) := by simp only [raLegal, decide_eq_true_eq]; omega
  simp [decode, hop, knownOpcodes, hill]

theorem decode_of_illegalCommand (h : IllegalCommand w) : decode w = .error .illCmd := by
  by_cases hk : opcField w ∈ knownOpcodes
  case neg => simp [decode, hk]
  obtain hres | ⟨hset, hra⟩ | ⟨hpix, hhigh⟩ | ⟨hset, hpix, himm⟩ := h
  · exact absurd hk hres
  · simp [decode, hk, hset, hra]
  · simp [decode, hpix, hhigh]
  · simp [decode, hk, hset, hpix, himm]

/-- Every other word is the word of the command it decodes to: the split is along the three formats, `SET`, `LZWPIX` and
the commands without operands. -/
theorem decode_of_legal (hset : ¬ IllegalSet w) (hcmd : ¬ IllegalCommand w) : ∃ i, decode w = .ok i ∧ encode i = w := by
  simp only [IllegalCommand, not_or, not_and, not_not] at hcmd
  obtain ⟨hk, hra, hhigh, himm⟩ := hcmd
  by_cases h1 : opcField w = 0x01#8
  case pos =>
    have hlegal : raLegal (raField w) := by
      have := not_and.1 hset h1
      simp only [raLegal, decide_eq_true_eq]; omega
    refine ⟨.set (raField w) (immField w), by simp [decode, knownOpcodes, h1, hlegal], ?_⟩
    rw [encode, ← h1, wordOf_fields]
  by_cases h21 : opcField w = 0x21#8
  case pos =>
    refine ⟨.lzwpix (imm8Field w), by simp [decode, knownOpcodes, h21, hra h1, hhigh h21], ?_⟩
    calc wordOf 0x21#8 0#8 (0#8 ++ imm8Field w)
        = wordOf (opcField w) (raField w) (immHighField w ++ imm8Field w) := by rw [h21, hra h1, hhigh h21]
      _ = w := by rw [immHigh_append_imm8, wordOf_fields]
  obtain ⟨i, hi, henc⟩ := plainCommand_of_known hk h1 h21
  refine ⟨i, by simp [decode, hk, h1, h21, hra h1, himm h1 h21, hi], ?_⟩
  rw [henc, ← hra h1, ← himm h1 h21, wordOf_fields]

/-- The three answers leave no word out. -/
theorem decode_cases (w : Word) :
    (IllegalSet w ∧ decode w = .error .illReg)
      ∨ (IllegalCommand w ∧ decode w = .error .illCmd)
      ∨ ∃ i, decode w = .ok i ∧ encode i = w := by
  by_cases hset : IllegalSet w
  · exact .inl ⟨hset, decode_of_illegalSet hset⟩
  by_cases hcmd : IllegalCommand w
  · exact .inr (.inl ⟨hcmd, decode_of_illegalCommand hcmd⟩)
  · exact .inr (.inr (decode_of_legal hset hcmd))

theorem decode_eq_illReg_iff : decode w = .error .illReg ↔ IllegalSet w := by
  refine ⟨fun h => ?_, decode_of_illegalSet⟩
  obtain ⟨hset, -⟩ | ⟨-, hd⟩ | ⟨i, hd, -⟩ := decode_cases w
  · exact hset
  · simp [hd] at h
  · simp [hd] at h

theorem decode_eq_illCmd_iff : decode w = .error .illCmd ↔ IllegalCommand w := by
  refine ⟨fun h => ?_, decode_of_illegalCommand⟩
  obtain ⟨-, hd⟩ | ⟨hcmd, -⟩ | ⟨i, hd, -⟩ := decode_cases w
  · simp [hd] at h
  · exact hcmd
  · simp [hd] at h

theorem encode_of_decode (h : decode w = .ok i) : encode i = w := by
  obtain ⟨-, hd⟩ | ⟨-, hd⟩ | ⟨j, hd, henc⟩ := decode_cases w
  · simp [hd] at h
  · simp [hd] at h
  · cases hd.symm.trans h
    exact henc

end

/-- Settles O3: the two refusals are the two kinds of illegal word of `decode_cases`, and a command has the one word that
encodes it. -/
theorem illegalWordsFaultByName : Obligations.IllegalWordsFaultByName := fun _ =>
  ⟨decode_eq_illReg_iff, decode_eq_illCmd_iff, fun _ _ h h' => (encode_of_decode h).symm.trans (encode_of_decode h')⟩

end Sys2Proof
end

section
/-! The control commands (40_control_commands.md R121, R122): the word of each, and what it does to the state. -/

namespace Sys2Proof

/-- The three fields of a word (30_encoding.md R90), shifted into place: bit `i` of either side is the bit of the one field
that holds it. -/
theorem wordOf_eq_or (opc ra : Byte) (imm : Half) :
    wordOf opc ra imm = opc.zeroExtend 32 <<< 24 ||| ra.zeroExtend 32 <<< 16 ||| imm.zeroExtend 32 := by
  apply BitVec.eq_of_getLsbD_eq
  intro i hi
  simp only [wordOf, BitVec.getLsbD_append, BitVec.getLsbD_or, BitVec.getLsbD_shiftLeft, BitVec.getLsbD_setWidth]
  grind

/-- The word of `NOP` is the only one with its opcode that is a command (40_control_commands.md R121). -/
theorem illegalCommand_of_nopOpcode {w : Word} (hopc : opcField w = 0x00#8) (hw : w ≠ 0#32) : IllegalCommand w := by
  by_contra hlegal
  simp only [IllegalCommand, not_or, not_and, not_not, hopc] at hlegal
  obtain ⟨-, hra, -, himm⟩ := hlegal
  apply hw
  calc w = wordOf (opcField w) (raField w) (immField w) := (wordOf_fields w).symm
    _ = wordOf 0x00#8 0#8 0#16 := by rw [hopc, hra (by decide), himm (by decide) (by decide)]
    _ = 0#32 := by decide

namespace Machine

/-- Settles O10: the decoder's clause is `illegalCommand_of_nopOpcode`; `NOP` has an empty body, so only `finish` acts. -/
theorem nopOnlyAdvancesPc : Obligations.NopOnlyAdvancesPc :=
  ⟨by decide, fun _ hopc hw => decode_of_illegalCommand (illegalCommand_of_nopOpcode hopc hw),
    fun s => finish_ok s⟩

/-- The indexes of the configuration registers, in the order of the table of 10_state.md R21. -/
theorem cfgRegOf_eq_getElem? (ra : Byte) :
    cfgRegOf ra
      = [CfgReg.frameW, .frameH, .regX, .regY, .regW, .regH, .depth, .maxsize, .maskStep][ra.toNat]? := by
  revert ra; decide

section
variable {ra : Byte}

theorem exists_cfgRegOf_of_le (h : ra.toNat ≤ 8) : ∃ r, cfgRegOf ra = some r :=
  Option.isSome_iff_exists.1 (by rw [cfgRegOf_isSome_iff]; exact decide_eq_true h)

theorem cfgRegOf_eq_none_of_gt (h : 8 < ra.toNat) : cfgRegOf ra = none := by
  rw [cfgRegOf_eq_getElem?]
  exact List.getElem?_eq_none h

theorem exec_set_of_register {r : CfgReg} (h : cfgRegOf ra = some r) (imm : Half) (s : State) :
    exec (.set ra imm) s = .next { s.setCfg r imm with pc := s.pc + 1#32 } := by
  simp only [exec_eq_finish, commandBody, setBody, h, finish_ok, State.setCfg_pc]

theorem exec_set_of_noRegister (h : cfgRegOf ra = none) (imm : Half) (s : State) :
    exec (.set ra imm) s = .next (s.takeFault .illReg (encode (.set ra imm))) := by
  simp only [exec_eq_finish, commandBody, setBody, h, finish_raised]

end

/-- Settles O11: an index of the register table writes the register it names, by `CfgRegs.put`; every other index is
beyond the table's end. -/
theorem setWritesOneRegister : Obligations.SetWritesOneRegister := by
  intro ra imm s
  refine ⟨wordOf_eq_or 0x01#8 ra imm, fun hle => ?_, fun hgt => exec_set_of_noRegister (cfgRegOf_eq_none_of_gt hgt) imm s⟩
  obtain ⟨r, hr⟩ := exists_cfgRegOf_of_le hle
  exact ⟨r, _, exec_set_of_register hr imm s, cfgRegOf_eq_getElem? ra ▸ hr, rfl, s.regs.get_put_same r imm,
    fun _ hne => s.regs.get_put_other imm hne.symm⟩

end Machine
end Sys2Proof
end

section
/-! The checks of the palette commands (41_palette_quantizer.md R131, R132): each comes before any change of state. -/

namespace Sys2Proof.Machine

theorem closedCheck_of_closed {w : Word} {s : State} (h : s.active = false) : closedCheck w s = .ok s := by
  simp [closedCheck, h]

/-- `FrameCheck` is the first thing each of the four commands does. -/
theorem commandBody_eq_frameCheck_bind {i : Instr} (hi : i ∈ [Instr.pbuild, .pmask, .pindex, .quant]) :
    ∃ f : State → Done, ∀ s, commandBody i s = (frameCheck (encode i) s).bind f := by
  simp only [List.mem_cons, List.not_mem_nil, or_false] at hi
  obtain rfl | rfl | rfl | rfl := hi <;> exact ⟨_, fun _ => rfl⟩

/-- In the two commands that have it, `MaxsizeCheck` follows directly. -/
theorem commandBody_eq_maxsizeCheck_bind {i : Instr} (hi : i ∈ [Instr.pbuild, .quant]) :
    ∃ f : State → Done,
      ∀ s, commandBody i s = (frameCheck (encode i) s).bind fun s => (maxsizeCheck (encode i) s).bind f := by
  simp only [List.mem_cons, List.not_mem_nil, or_false] at hi
  obtain rfl | rfl := hi <;> exact ⟨_, fun _ => rfl⟩

/-- Settles O12: the four palette commands begin with `FrameCheck`; in `LZWENC` the two checks before it pass. -/
theorem frameCheckFaults : Obligations.FrameCheckFaults := by
  intro s hframe
  constructor
  · intro i hi
    obtain ⟨f, hf⟩ := commandBody_eq_frameCheck_bind hi
    rw [exec_eq_finish, hf, frameCheck_illegal hframe]
    rfl
  · intro hclosed hdepth
    rw [exec_eq_finish, commandBody, lzwencBody, closedCheck_of_closed hclosed, Done.ok_bind, depthCheck_legal hdepth,
      Done.ok_bind, frameCheck_illegal hframe]
    rfl

/-- Settles O13: with `FrameCheck` passed, `PBUILD` and `QUANT` come to `MaxsizeCheck` in the state they began in. -/
theorem maxsizeCheckFaults : Obligations.MaxsizeCheckFaults := by
  intro s hframe hmax i hi
  obtain ⟨f, hf⟩ := commandBody_eq_maxsizeCheck_bind hi
  rw [exec_eq_finish, hf, frameCheck_legal hframe, Done.ok_bind, maxsizeCheck_illegal hmax]
  rfl

end Sys2Proof.Machine
end

section
/-! `PBUILD` computes the distinct colours of the frame (41_palette_quantizer.md R133, R135): the palette it has built at
any point of its scan is `distinctColours` of the pixels scanned. -/

namespace Sys2Proof.Machine

/-! ### Colours in order of first occurrence -/

/-- The colours `acc` met so far, then those of `ps` in order of first occurrence; see `distinctColours_eq_moreColours`. -/
def moreColours (acc ps : List Pixel) : List Pixel := ps.foldl (fun acc p => if p ∈ acc then acc else acc ++ [p]) acc

theorem distinctColours_eq_moreColours (ps : List Pixel) : distinctColours ps = moreColours [] ps := rfl

section
variable {acc : List Pixel} {p : Pixel}

@[simp] theorem moreColours_nil (acc : List Pixel) : moreColours acc [] = acc := rfl

theorem moreColours_cons_of_mem (h : p ∈ acc) (ps : List Pixel) : moreColours acc (p :: ps) = moreColours acc ps := by
  simp only [moreColours, List.foldl_cons, if_pos h]

theorem moreColours_cons_of_notMem (h : p ∉ acc) (ps : List Pixel) :
    moreColours acc (p :: ps) = moreColours (acc ++ [p]) ps := by
  simp only [moreColours, List.foldl_cons, if_neg h]

end

/-- Colours once met stay where they are. -/
theorem moreColours_isPrefix (acc ps : List Pixel) : acc <+: moreColours acc ps := by
  induction ps generalizing acc with
  | nil => exact List.prefix_rfl
  | cons p ps ih =>
    by_cases hp : p ∈ acc
    · rw [moreColours_cons_of_mem hp]
      exact ih acc
    · rw [moreColours_cons_of_notMem hp]
      exact (List.prefix_append acc [p]).trans (ih _)

/-! ### The palette as a list -/

/-- `PAL[0 .. n-1]` in order. -/
def State.palColours (s : State) (n : Nat) : List Pixel := (List.range n).map s.readPal

@[simp] theorem State.length_palColours (s : State) (n : Nat) : (s.palColours n).length = n := by
  simp [State.palColours]

@[simp] theorem State.getElem_palColours (s : State) {m n : Nat} (h : m < (s.palColours n).length) :
    (s.palColours n)[m] = s.readPal m := by
  simp [State.palColours]

theorem State.palFind_eq_none_iff_notMem {s : State} {n : Nat} {p : Pixel} :
    s.palFind n p = none ↔ p ∉ s.palColours n := by
  simp [State.palFind_eq_none, State.palColours]

theorem State.mem_palColours_of_palFind {s : State} {n m : Nat} {p : Pixel} (h : s.palFind n p = some m) :
    p ∈ s.palColours n := by
  by_contra hp
  simp [State.palFind_eq_none_iff_notMem.2 hp] at h

/-- The colour accepted next stands behind those accepted before (41_palette_quantizer.md R133). -/
theorem State.palColours_writePal (s : State) (n : Nat) (p : Pixel) :
    (s.writePal n p).palColours (n + 1) = s.palColours n ++ [p] := by
  have hkept : ∀ m ∈ List.range n, (s.writePal n p).readPal m = s.readPal m := fun m hm => by
    rw [State.readPal_writePal, if_neg (List.mem_range.1 hm).ne']
  have hnew : (s.writePal n p).readPal n = p := by rw [State.readPal_writePal, if_pos rfl]
  simp only [State.palColours, List.range_succ, List.map_append, List.map_cons, List.map_nil, hnew, List.map_congr_left hkept]

/-! ### The scan -/

/-- `t` is `s` after a palette pass over pixels whose distinct colours are `cs` (41_palette_quantizer.md R133, R135). -/
structure PaletteBuilt (s : State) (cs : List Pixel) (t : State) : Prop where
  same : t = { s with ovf := t.ovf, palSize := t.palSize, pal := t.pal }
  overflow : t.ovf = true ↔ s.regs.maxsize.toNat < cs.length
  size : t.palSize.toNat = min s.regs.maxsize.toNat cs.length
  colours : ∀ m, m < t.palSize.toNat → cs[m]? = some (t.readPal m)
  rest : ∀ m, t.palSize.toNat ≤ m → t.readPal m = s.readPal m

/-- A pass ends with `n` colours accepted, with overflow exactly if there are more. -/
theorem paletteBuilt_endPass {s : State} {cs : List Pixel} {n : Nat} {o : Bool} (hn : n < 512)
    (hcs : s.palColours n <+: cs) (hsize : n = min s.regs.maxsize.toNat cs.length)
    (ho : o = true ↔ s.regs.maxsize.toNat < cs.length) : PaletteBuilt s cs (s.endPass o n) := by
  have hpal : (s.endPass o n).palSize.toNat = n := by
    rw [State.endPass_palSize, BitVec.toNat_ofNat, Nat.mod_eq_of_lt hn]
  refine ⟨rfl, ho, hpal.trans hsize, fun m hm => ?_, fun _ _ => rfl⟩
  rw [hpal] at hm
  rw [List.prefix_iff_getElem?.1 hcs m (by rwa [State.length_palColours]), State.getElem_palColours]
  rfl

/-- A colour accepted on the way belongs to the palette built. -/
theorem PaletteBuilt.of_writePal {s t : State} {cs : List Pixel} {n : Nat} {p : Pixel} (hn : n < s.regs.maxsize.toNat)
    (hcs : n < cs.length) (h : PaletteBuilt (s.writePal n p) cs t) : PaletteBuilt s cs t := by
  obtain ⟨hsame, hovf, hsize, hcol, hrest⟩ := h
  rw [State.writePal_regs] at hovf hsize
  refine ⟨hsame.trans rfl, hovf, hsize, hcol, fun m hm => ?_⟩
  rw [hrest m hm, State.readPal_writePal, if_neg (by omega)]

/-- What the scan has accepted are the distinct colours of the pixels before `k`; it ends with those of all pixels. -/
theorem pbuildScan_paletteBuilt (n k size : Nat) (s : State) (hsize : size ≤ s.regs.maxsize.toNat)
    (hmax : s.regs.maxsize.toNat ≤ 256) :
    ∃ t, pbuildScan n k size s = .ok t
      ∧ PaletteBuilt s (moreColours (s.palColours size) ((List.range' k n).map s.readTc)) t := by
  induction n generalizing k size s with
  | zero => exact ⟨_, rfl, paletteBuilt_endPass (by omega) List.prefix_rfl (by simpa using hsize) (by simpa using hsize)⟩
  | succ n ih =>
    rw [pbuildScan, List.range'_succ, List.map_cons]
    cases hfind : s.palFind size (s.readTc k) with
    | some m =>
      rw [moreColours_cons_of_mem (State.mem_palColours_of_palFind hfind)]
      exact ih (k + 1) size s hsize hmax
    | none =>
      rw [moreColours_cons_of_notMem (State.palFind_eq_none_iff_notMem.1 hfind)]
      set cs := moreColours (s.palColours size ++ [s.readTc k]) ((List.range' (k + 1) n).map s.readTc)
      have hpre : s.palColours size ++ [s.readTc k] <+: cs := moreColours_isPrefix _ _
      have hlen : size < cs.length := by simpa using hpre.length_le
      by_cases hfull : size = s.regs.maxsize.toNat
      · refine ⟨_, if_pos hfull, paletteBuilt_endPass (by omega) ((List.prefix_append _ _).trans hpre) (by omega) ?_⟩
        exact iff_of_true rfl (hfull ▸ hlen)
      · obtain ⟨t, ht, hbuilt⟩ := ih (k + 1) (size + 1) (s.writePal size (s.readTc k))
          (by rw [State.writePal_regs]; omega) hmax
        rw [State.palColours_writePal] at hbuilt
        exact ⟨t, by rw [if_neg hfull, ht], hbuilt.of_writePal (by omega) hlen⟩

/-- One pass of the Palette Builder: the first pixel is the first colour, the rest is the scan. -/
theorem pbuildPass_paletteBuilt {s : State} (hframe : s.FrameLegal) (hmax : s.MaxsizeLegal) :
    ∃ t, pbuildPass s = .ok t ∧ PaletteBuilt s (distinctColours s.framePixels) t := by
  obtain ⟨hlo, hhi⟩ := hmax.bounds
  have harea : s.frameArea = s.frameArea - 1 + 1 := (Nat.sub_add_cancel (Nat.mul_pos hframe.1 hframe.2.1)).symm
  obtain ⟨t, ht, hbuilt⟩ := pbuildScan_paletteBuilt (s.frameArea - 1) 1 1 (s.writePal 0 (s.readTc 0))
    (by rw [State.writePal_regs]; omega) hhi
  have hcs : distinctColours s.framePixels
      = moreColours [s.readTc 0] ((List.range' 1 (s.frameArea - 1)).map s.readTc) := by
    rw [State.framePixels, harea, List.range_eq_range', List.range'_succ]
    rfl
  rw [State.palColours_writePal] at hbuilt
  rw [hcs]
  exact ⟨t, ht, hbuilt.of_writePal (n := 0) (by omega) (moreColours_isPrefix [s.readTc 0] _).length_le⟩

/-- Settles O14: an illegal setting is one of the two checks' faults; otherwise the pass builds the palette of
`pbuildPass_paletteBuilt` and `PC` advances. -/
theorem pbuildCollectsDistinctColours : Obligations.PbuildCollectsDistinctColours := by
  intro s
  constructor
  · intro hillegal
    by_cases hframe : s.FrameLegal
    · exact maxsizeCheckFaults s hframe (fun hmax => hillegal ⟨hframe, hmax⟩) .pbuild (by decide)
    · exact (frameCheckFaults s hframe).1 .pbuild (by decide)
  · intro hframe hmax
    obtain ⟨t, ht, hsame, hovf, hsize, hcol, hrest⟩ := pbuildPass_paletteBuilt hframe hmax
    refine ⟨{ t with pc := t.pc + 1#32 }, ?_, ?_, hovf, hsize, hcol, hrest⟩
    · rw [exec_eq_finish, commandBody, pbuildBody_legal hframe hmax, ht, finish_ok]
    · rw [hsame]

end Sys2Proof.Machine
end

section
/-! `PMASK`, one step and several (41_palette_quantizer.md R136, R137): the masks are nested. -/

namespace Sys2Proof.Machine

/-! ### The masks -/

/-- A byte holds no more of `0xFF << k` than R136 keeps. -/
theorem channelMask_eq_and (k : Nat) : channelMask k = BitVec.ofNat 8 (0xFF <<< k &&& 0xFF) := by
  apply BitVec.eq_of_toNat_eq
  have hmod : 0xFF <<< k &&& 0xFF = 0xFF <<< k % 2 ^ 8 := Nat.and_two_pow_sub_one_eq_mod _ 8
  rw [channelMask, hmod, BitVec.toNat_ofNat, BitVec.toNat_ofNat, Nat.mod_mod]

/-- Two masks in turn are their conjunction at once. -/
theorem maskPixel_maskPixel (p : Pixel) (m m' : Byte) : maskPixel (maskPixel p m) m' = maskPixel p (m &&& m') := by
  simp only [maskPixel, BitVec.and_assoc]

/-- A mask keeps nothing that the one before it clears (41_palette_quantizer.md R137). -/
theorem channelMask_and_succ : ∀ k : Fin 8, channelMask k &&& channelMask (k + 1) = channelMask (k + 1) := by decide

/-- So the next mask on a masked pixel is the next mask on the original (41_palette_quantizer.md R137). -/
theorem maskPixel_channelMask_succ (p : Pixel) {k : Nat} (hk : k < 8) :
    maskPixel (maskPixel p (channelMask k)) (channelMask (k + 1)) = maskPixel p (channelMask (k + 1)) := by
  rw [maskPixel_maskPixel, channelMask_and_succ ⟨k, hk⟩]

@[simp] theorem maskPixel_channelMask_zero (p : Pixel) : maskPixel p (channelMask 0) = p := by
  simp [maskPixel, channelMask, Laws.OpcodeRow.and_ones]

theorem maskPixel_channelMask_eight (p : Pixel) : maskPixel p (channelMask 8) = { r := 0#8, g := 0#8, b := 0#8 } := by
  simp [maskPixel, channelMask]

/-! ### One step -/

/-- `t` is `s` after one completed `PMASK`. -/
structure MaskStepped (s t : State) : Prop where
  same : t = { s with pc := s.pc + 1#32, regs := { s.regs with maskStep := s.regs.maskStep + 1#16 }, tc := t.tc }
  frame : ∀ k, k < s.frameArea → t.readTc k = maskPixel (s.readTc k) (channelMask (s.regs.maskStep.toNat + 1))
  rest : ∀ k, s.frameArea ≤ k → t.readTc k = s.readTc k

/-- With steps left the count of steps does not wrap. -/
theorem toNat_maskStep_succ {x : Half} (hx : x.toNat < 8) : (x + 1#16).toNat = x.toNat + 1 := by
  rw [BitVec.toNat_add, BitVec.toNat_ofNat]
  omega

/-- `PMASK` on a legal frame with steps left completes. -/
theorem exec_pmask_legal {s : State} (hframe : s.FrameLegal) (hstep : s.regs.maskStep.toNat < 8) :
    ∃ t, exec .pmask s = .next t ∧ MaskStepped s t := by
  have hnext : BitVec.ofNat 16 (s.regs.maskStep.toNat + 1) = s.regs.maskStep + 1#16 := by
    rw [BitVec.ofNat_add, BitVec.ofNat_toNat, BitVec.setWidth_eq]
  obtain ⟨t, ht, hsame, hread, -⟩ := maskFrame_spec (s.setCfg .maskStep (s.regs.maskStep + 1#16))
  refine ⟨{ t with pc := t.pc + 1#32 }, ?_, ?_, fun k hk => ?_, fun k hk => ?_⟩
  · rw [exec_eq_finish, commandBody, pmaskBody_legal hframe hstep, hnext, ht, finish_ok]
  · rw [hsame]; rfl
  · rw [← toNat_maskStep_succ hstep]
    exact (hread k).trans (if_pos hk)
  · exact (hread k).trans (if_neg (Nat.not_lt.2 hk))

/-- Settles O16: the two checks in order, then the masked frame of `exec_pmask_legal`. -/
theorem pmaskMasksFrameInPlace : Obligations.PmaskMasksFrameInPlace := by
  intro s
  refine ⟨fun hframe => (frameCheckFaults s hframe).1 .pmask (by decide), fun hframe hlimit => ?_, fun hframe hstep => ?_⟩
  · rw [exec_eq_finish, commandBody, pmaskBody_limit hframe hlimit]
    rfl
  · obtain ⟨t, ht, hsame, hmasked, hrest⟩ := exec_pmask_legal hframe hstep
    exact ⟨t, _, ht, channelMask_eq_and _, hsame, hmasked, hrest⟩

/-! ### Several steps -/

/-- After a command without fault the rest of the commands runs. -/
theorem runCommands_cons {i : Instr} {s t : State} (h : exec i s = .next t) (hfault : t.fault = false) (is : List Instr) :
    runCommands (i :: is) s = runCommands is t := by
  simp [runCommands, h, hfault]

/-- `t` is the legal frame `s` after `j` mask steps without fault. -/
structure MaskedTimes (s : State) (j : Nat) (t : State) : Prop where
  fault : t.fault = false
  legal : t.FrameLegal
  area : t.frameArea = s.frameArea
  steps : t.regs.maskStep.toNat = j
  frame : ∀ k, k < s.frameArea → t.readTc k = maskPixel (s.readTc k) (channelMask j)

/-- One more step: the nested masks make it the next mask of the original frame. -/
theorem MaskedTimes.step {s t : State} {j : Nat} (h : MaskedTimes s j t) (hj : j < 8) :
    ∃ u, exec .pmask t = .next u ∧ MaskedTimes s (j + 1) u := by
  obtain ⟨hfault, hlegal, harea, hsteps, hframe⟩ := h
  obtain ⟨u, hu, hsame, hmasked, -⟩ := exec_pmask_legal hlegal (by omega)
  refine ⟨u, hu, ?_, ?_, ?_, ?_, fun k hk => ?_⟩
  · rw [hsame]; exact hfault
  · rw [hsame]; exact hlegal
  · rw [hsame]; exact harea
  · rw [hsame, ← hsteps]
    exact toNat_maskStep_succ (by omega)
  · rw [hmasked k (harea ▸ hk), hframe k hk, hsteps, maskPixel_channelMask_succ _ hj]

/-- `n` more steps, up to eight in all. -/
theorem MaskedTimes.run {s : State} {n j : Nat} (hn : j + n ≤ 8) {t : State} (h : MaskedTimes s j t) :
    ∃ u, runCommands (List.replicate n .pmask) t = .next u ∧ MaskedTimes s (j + n) u := by
  induction n generalizing j t with
  | zero => exact ⟨t, rfl, h⟩
  | succ n ih =>
    obtain ⟨u, hu, hmasked⟩ := h.step (by omega)
    obtain ⟨v, hv, hdone⟩ := ih (by omega) hmasked
    refine ⟨v, ?_, ?_⟩
    · rw [List.replicate_succ, runCommands_cons hu hmasked.fault, hv]
    · rwa [Nat.add_right_comm] at hdone

/-- Settles O17: the run of `MaskedTimes.run` from the frame masked no times; the mask of step `j` clears the low `j` bits. -/
theorem repeatedMasksEqualOneMask : Obligations.RepeatedMasksEqualOneMask := by
  refine ⟨by decide, fun s j hfault hlegal hstep hj => ?_⟩
  have hstart : MaskedTimes s 0 s := ⟨hfault, hlegal, rfl, by rw [hstep]; rfl, by simp⟩
  obtain ⟨t, ht, hdone⟩ := hstart.run (n := j) (by omega)
  rw [Nat.zero_add] at hdone
  refine ⟨t, ht, hdone.fault, hdone.steps, fun k hk => ?_, fun k hk => ?_, ?_⟩
  · rw [hdone.frame k hk, channelMask_eq_and]
  · rw [hdone.frame k hk, maskPixel_channelMask _ hj]
  · rintro rfl k hk
    rw [hdone.frame k hk, maskPixel_channelMask_eight]

end Sys2Proof.Machine
end

section
/-! `PINDEX` (41_palette_quantizer.md R138): the indexes written before the first pixel without a match, and how it ends. -/

namespace Sys2Proof.Machine

/-- Some entry below `PAL_SIZE` equals the pixel. -/
def State.HasMatch (s : State) (p : Pixel) : Prop := ∃ m, m < s.palSize.toNat ∧ s.readPal m = p

/-- `b` is the lowest position below `PAL_SIZE` whose entry equals the pixel. -/
def State.IsLowestMatch (s : State) (b : Byte) (p : Pixel) : Prop :=
  b.toNat < s.palSize.toNat ∧ s.readPal b.toNat = p ∧ ∀ m, m < b.toNat → s.readPal m ≠ p

/-- What `PINDEX` does to a pixel with a match. -/
theorem pindexPixel_of_hasMatch {k : Nat} {s : State} (hp : s.palSize.toNat ≤ 256) (h : s.HasMatch (s.readTc k)) :
    ∃ b, pindexPixel k s = .ok (s.writeIdx k b) ∧ s.IsLowestMatch b (s.readTc k) := by
  cases hfind : s.palFind s.palSize.toNat (s.readTc k) with
  | none =>
    obtain ⟨m, hm, heq⟩ := h
    exact absurd heq (State.palFind_eq_none.1 hfind m hm)
  | some m =>
    obtain ⟨hm, heq, hlow⟩ := State.palFind_eq_some.1 hfind
    have hbyte : (BitVec.ofNat 8 m).toNat = m := by rw [BitVec.toNat_ofNat]; omega
    exact ⟨_, pindexPixel_hit hp hfind, by rwa [hbyte], by rwa [hbyte], by rwa [hbyte]⟩

/-- `t` is `s` with the first `n` pixels indexed. -/
structure IndexedUpTo (s : State) (n : Nat) (t : State) : Prop where
  same : t = { s with idx := t.idx }
  indexed : ∀ k, k < n → s.IsLowestMatch (t.readIdx k) (s.readTc k)
  rest : ∀ k, n ≤ k → t.readIdx k = s.readIdx k

theorem IndexedUpTo.step {s t : State} {n : Nat} (h : IndexedUpTo s n t) (hp : s.palSize.toNat ≤ 256)
    (hmatch : s.HasMatch (s.readTc n)) : ∃ u, pindexPixel n t = .ok u ∧ IndexedUpTo s (n + 1) u := by
  obtain ⟨hsame, hindexed, hrest⟩ := h
  rw [hsame]
  obtain ⟨b, hb, hlow⟩ := pindexPixel_of_hasMatch (k := n) (s := { s with idx := t.idx }) hp hmatch
  refine ⟨_, hb, rfl, fun k hk => ?_, fun k hk => ?_⟩
  · rw [State.readIdx_writeIdx]
    by_cases hkn : n = k
    · rw [if_pos hkn, ← hkn]
      exact hlow
    · rw [if_neg hkn]
      exact hindexed k (by omega)
  · rw [State.readIdx_writeIdx, if_neg (by omega)]
    exact hrest k (by omega)

/-- The scan gets through every pixel that has a match. -/
theorem pindexScan_indexes {s : State} {n : Nat} (hp : s.palSize.toNat ≤ 256)
    (hmatch : ∀ k, k < n → s.HasMatch (s.readTc k)) : ∃ t, forFrom n 0 pindexPixel s = .ok t ∧ IndexedUpTo s n t := by
  have hstart : IndexedUpTo s 0 s := ⟨rfl, fun k hk => absurd hk (Nat.not_lt_zero k), fun _ _ => rfl⟩
  obtain ⟨t, ht, hdone⟩ := forFrom_ok (I := IndexedUpTo s) (body := pindexPixel) (n := n) (a := 0)
    (fun k u _ hk hu => hu.step hp (hmatch k (by omega))) hstart
  rw [Nat.zero_add] at hdone
  exact ⟨t, ht, hdone⟩

/-- The scan raises at the first pixel without a match, in the state the pixels before it have left. -/
theorem pindexScan_raises {s : State} {k n : Nat} (hk : k < n) (hp : s.palSize.toNat ≤ 256)
    (hmiss : ∀ m, m < s.palSize.toNat → s.readPal m ≠ s.readTc k) (hmatch : ∀ j, j < k → s.HasMatch (s.readTc j)) :
    ∃ t, forFrom n 0 pindexPixel s = .raised .noMatch (BitVec.ofNat 32 k) t ∧ IndexedUpTo s k t := by
  obtain ⟨t, ht, hdone⟩ := pindexScan_indexes hp hmatch
  have hraise : pindexPixel k t = .raised .noMatch (BitVec.ofNat 32 k) t := by
    rw [hdone.same]
    exact pindexPixel_miss hp (State.palFind_eq_none.2 hmiss)
  obtain ⟨r, rfl⟩ : ∃ r, n = k + (r + 1) := ⟨n - k - 1, by omega⟩
  refine ⟨t, ?_, hdone⟩
  rw [forFrom_add, ht, Done.ok_bind, Nat.zero_add, forFrom_succ, hraise, Done.raised_bind]

theorem exec_pindex_legal {s : State} (hframe : s.FrameLegal) :
    exec .pindex s = finish (forFrom s.frameArea 0 pindexPixel s) := by
  rw [exec_eq_finish, commandBody, pindexBody, frameCheck_legal hframe, Done.ok_bind]

/-- Settles O18: with a match for every pixel the scan completes, otherwise it raises at the first pixel without one. -/
theorem pindexFindsLowestMatch : Obligations.PindexFindsLowestMatch := by
  intro s
  refine ⟨fun hframe => (frameCheckFaults s hframe).1 .pindex (by decide), fun hframe hp hmatch => ?_,
    fun k0 hframe hp hk0 hmiss hmatch => ?_⟩
  · obtain ⟨t, ht, hsame, hindexed, hrest⟩ := pindexScan_indexes hp hmatch
    refine ⟨{ t with pc := t.pc + 1#32 }, ?_, ?_, hindexed, hrest⟩
    · rw [exec_pindex_legal hframe, ht, finish_ok]
    · rw [hsame]
  · obtain ⟨t, ht, hsame, hindexed, hrest⟩ := pindexScan_raises hk0 hp hmiss hmatch
    refine ⟨t.takeFault .noMatch (BitVec.ofNat 32 k0), ?_, ?_, hindexed, hrest⟩
    · rw [exec_pindex_legal hframe, ht, finish_raised]
    · rw [hsame]; rfl

end Sys2Proof.Machine
end

section
/-! The packer's operations in bits and bytes: what a part sends to `OUT` and holds afterwards is, in order, what was held
before and what it was given (43_code_packer.md R170, R172, R173, R176), and `Close` makes image data of it
(30_encoding.md Part B). -/

namespace Sys2Proof.Machine

/-! ### Bits of numbers and bytes -/

@[simp] theorem length_lowBits (n c : Nat) : (lowBits n c).length = n := by simp [lowBits]

@[simp] theorem lowBits_zero (c : Nat) : lowBits 0 c = [] := rfl

theorem lowBits_congr {n a b : Nat} (h : ∀ i, i < n → a.testBit i = b.testBit i) : lowBits n a = lowBits n b :=
  List.map_congr_left fun i hi => h i (List.mem_range.1 hi)

theorem lowBits_add (m n c : Nat) : lowBits (m + n) c = lowBits m c ++ lowBits n (c >>> m) := by
  unfold lowBits
  rw [List.range_add, List.map_append, List.map_map]
  congr 1
  exact List.map_congr_left fun i _ => (Nat.testBit_shiftRight c).symm

/-- Bits of a number cut to `m` bits, if no more than `m` are asked for. -/
theorem lowBits_mod {n m : Nat} (h : n ≤ m) (c : Nat) : lowBits n (c % 2 ^ m) = lowBits n c :=
  lowBits_congr fun i hi => by rw [Nat.testBit_mod_two_pow, decide_eq_true (by omega : i < m), Bool.true_and]

/-- Beyond the bits a number has there are zeros only. -/
theorem lowBits_of_lt {m c : Nat} (h : c < 2 ^ m) (n : Nat) : lowBits (m + n) c = lowBits m c ++ List.replicate n false := by
  have hzeros : lowBits n 0 = List.replicate n false :=
    (List.map_congr_left fun i _ => Nat.zero_testBit i).trans (by simp)
  rw [lowBits_add, Nat.shiftRight_eq_zero c m h, hzeros]

/-- A number laid above the `m` bits of another. -/
theorem lowBits_or_shiftLeft {p m : Nat} (hp : p < 2 ^ m) (n c : Nat) :
    lowBits (m + n) (p ||| c <<< m) = lowBits m p ++ lowBits n c := by
  rw [lowBits_add, Nat.shiftRight_or_distrib, Nat.shiftRight_eq_zero p m hp, Nat.zero_or, Nat.shiftLeft_shiftRight]
  congr 1
  refine lowBits_congr fun i hi => ?_
  rw [Nat.testBit_or, Nat.testBit_shiftLeft, decide_eq_false (by omega), Bool.false_and, Bool.or_false]

theorem bitsOfBytes_append (xs ys : List Byte) : bitsOfBytes (xs ++ ys) = bitsOfBytes xs ++ bitsOfBytes ys :=
  List.flatMap_append

theorem bitsOfBytes_cons (b : Byte) (bs : List Byte) : bitsOfBytes (b :: bs) = lowBits 8 b.toNat ++ bitsOfBytes bs := rfl

theorem length_bitsOfBytes (bs : List Byte) : (bitsOfBytes bs).length = 8 * bs.length := by
  induction bs with
  | nil => rfl
  | cons b bs ih => rw [bitsOfBytes_cons, List.length_append, length_lowBits, ih, List.length_cons]; omega

/-- The `k` low bytes of a number, lowest first: what the loop of `Emit` takes off its accumulator. -/
def lowBytes : Nat → Nat → List Byte
  | 0, _ => []
  | k + 1, acc => BitVec.ofNat 8 acc :: lowBytes k (acc >>> 8)

theorem bitsOfBytes_lowBytes (k acc : Nat) : bitsOfBytes (lowBytes k acc) = lowBits (8 * k) acc := by
  induction k generalizing acc with
  | zero => rfl
  | succ k ih =>
    rw [lowBytes, bitsOfBytes_cons, ih, BitVec.toNat_ofNat, lowBits_mod le_rfl, Nat.mul_succ, Nat.add_comm, lowBits_add]

/-! ### Bytes into `BUF` and out of it -/

/-- The whole bytes the packer holds. -/
def State.heldBytes (s : State) : List Byte := s.bufBytes s.bufCnt.toNat

theorem State.heldBits_eq (s : State) :
    s.heldBits = bitsOfBytes s.heldBytes ++ lowBits s.nbits.toNat s.partialByte.toNat := rfl

@[simp] theorem State.length_bufBytes (s : State) (n : Nat) : (s.bufBytes n).length = n := by simp [State.bufBytes]

theorem State.bufBytes_writeBuf (s : State) (n : Nat) (b : Byte) :
    (s.writeBuf n b).bufBytes (n + 1) = s.bufBytes n ++ [b] := by
  unfold State.bufBytes
  rw [List.range_succ, List.map_append, List.map_singleton, State.readBuf_writeBuf, if_pos rfl]
  congr 1
  refine List.map_congr_left fun a ha => ?_
  rw [State.readBuf_writeBuf, if_neg (by have := List.mem_range.1 ha; omega)]

/-- `Takes` for whole bytes: from `s` to `t` the bytes `bs` were buffered, every full sub-block going to `OUT`
(43_code_packer.md R173). -/
def TakesBytes (s t : State) (bs : List Byte) : Prop :=
  ∃ blocks : List (List Byte),
    (∀ b ∈ blocks, b.length = 255)
      ∧ t.out = s.out ++ blocks.flatMap (fun b => 0xFF#8 :: b)
      ∧ blocks.flatten ++ t.heldBytes = s.heldBytes ++ bs

theorem TakesBytes.trans {s t u : State} {bs cs : List Byte} (h : TakesBytes s t bs) (h' : TakesBytes t u cs) :
    TakesBytes s u (bs ++ cs) := by
  obtain ⟨blocks, hlen, hout, hheld⟩ := h
  obtain ⟨blocks', hlen', hout', hheld'⟩ := h'
  refine ⟨blocks ++ blocks', fun b hb => (List.mem_append.1 hb).elim (hlen b) (hlen' b), ?_, ?_⟩
  · rw [hout', hout, List.flatMap_append, List.append_assoc]
  · rw [List.flatten_append, List.append_assoc, hheld', ← List.append_assoc, hheld, List.append_assoc]

theorem pushByte_takesBytes {b : Byte} {s t : State} (h : pushByte b s = .ok t) : TakesBytes s t [b] := by
  rcases Nat.lt_trichotomy s.bufCnt.toNat 254 with hlt | heq | hgt
  · obtain rfl := Done.ok.inj ((pushByte_of_lt hlt).symm.trans h)
    refine ⟨[], by simp, by simp, ?_⟩
    show (s.writeBuf _ b).bufBytes (BitVec.ofNat 8 (s.bufCnt.toNat + 1)).toNat = _
    rw [BitVec.toNat_ofNat, Nat.mod_eq_of_lt (by omega)]
    exact s.bufBytes_writeBuf _ b
  · obtain rfl := Done.ok.inj ((pushByte_of_eq heq).symm.trans h)
    refine ⟨[(s.writeBuf 254 b).bufBytes 255], by simp, by simp, ?_⟩
    show [(s.writeBuf 254 b).bufBytes (254 + 1)].flatten ++ [] = s.bufBytes s.bufCnt.toNat ++ [b]
    rw [s.bufBytes_writeBuf 254 b, heq]
    simp
  · rw [pushByte_stops b (by omega)] at h
    cases h

theorem drain_takesBytes {k acc n : Nat} {s t : State} (h : drain k acc n s = .ok t) :
    TakesBytes s t (lowBytes k acc) := by
  induction k generalizing acc n s with
  | zero =>
    obtain rfl := Done.ok.inj h
    exact ⟨[], by simp, by simp, by simp [lowBytes, State.heldBytes]; rfl⟩
  | succ k ih =>
    obtain ⟨u, hpush, hdrain⟩ := Done.bind_eq_ok.1 h
    exact (pushByte_takesBytes hpush).trans (ih hdrain)

/-! ### Codes -/

/-- With no bit held the partial byte is zero (43_code_packer.md R171). -/
theorem State.PackerOk.partialByte_eq_zero {s : State} (hs : s.PackerOk) (h : s.nbits = 0#3) : s.partialByte = 0#8 := by
  obtain ⟨hlt, -⟩ := hs
  rw [h] at hlt
  exact BitVec.eq_of_toNat_eq (Nat.lt_one_iff.1 hlt)

/-- Bytes and the bits left over, together. -/
theorem TakesBytes.takes {s t : State} {bs : List Byte} {bits : List Bool} (h : TakesBytes s t bs) (hok : t.PackerOk)
    (hbits : bitsOfBytes bs ++ lowBits t.nbits.toNat t.partialByte.toNat
      = lowBits s.nbits.toNat s.partialByte.toNat ++ bits) : Takes s t bits := by
  obtain ⟨blocks, hlen, hout, hheld⟩ := h
  refine ⟨blocks, hlen, hout, ?_, hok⟩
  rw [t.heldBits_eq, s.heldBits_eq, ← List.append_assoc, ← bitsOfBytes_append, hheld, bitsOfBytes_append,
    List.append_assoc, hbits, List.append_assoc]

theorem Takes.packerOk {s t : State} {bits : List Bool} (h : Takes s t bits) : t.PackerOk := by
  obtain ⟨_, -, -, -, hok⟩ := h
  exact hok

theorem Takes.refl {s : State} (h : s.PackerOk) : Takes s s [] := ⟨[], by simp, by simp, by simp [bitsOfBytes], h⟩

theorem Takes.trans {s t u : State} {bits bits' : List Bool} (h : Takes s t bits) (h' : Takes t u bits') :
    Takes s u (bits ++ bits') := by
  obtain ⟨blocks, hlen, hout, hheld, -⟩ := h
  obtain ⟨blocks', hlen', hout', hheld', hok⟩ := h'
  refine ⟨blocks ++ blocks', fun b hb => (List.mem_append.1 hb).elim (hlen b) (hlen' b), ?_, ?_, hok⟩
  · rw [hout', hout, List.flatMap_append, List.append_assoc]
  · rw [List.flatten_append, bitsOfBytes_append, List.append_assoc, hheld', ← List.append_assoc, hheld, List.append_assoc]

/-- Too few bits to fill a sub-block all stay in the packer. -/
theorem Takes.of_short {s t : State} {bits : List Bool} (h : Takes s t bits)
    (hshort : (s.heldBits ++ bits).length < 8 * 255) : t.out = s.out ∧ t.heldBits = s.heldBits ++ bits := by
  obtain ⟨blocks, hlen, hout, hheld, -⟩ := h
  cases blocks with
  | nil => exact ⟨by simpa using hout, hheld⟩
  | cons b blocks =>
    have hb := hlen b List.mem_cons_self
    rw [← hheld, List.flatten_cons, List.length_append, length_bitsOfBytes, List.length_append] at hshort
    omega

/-- The accumulator of `Emit` holds the partial byte with the code above it; its whole bytes are pushed and the rest is
the next partial byte (43_code_packer.md R172). -/
theorem emit_takes {c wd : Nat} {s t : State} (hs : s.PackerOk) (h : emit c wd s = .ok t) : Takes s t (lowBits wd c) := by
  obtain ⟨h1, h2, h3⟩ := emit_eq_ok h
  obtain ⟨_, ht, -, -, -, hnbits, -, hok, -⟩ := emit_spec h1 h2 h3 hs.2
  obtain rfl := Done.ok.inj (ht.symm.trans h)
  rw [emit, if_pos ⟨h1, h2, h3⟩] at h
  obtain ⟨_, ht', -, hpartial, -⟩ := drain_spec (k := (s.nbits.toNat + wd) / 8)
    (acc := s.partialByte.toNat ||| c <<< s.nbits.toNat) (n := s.nbits.toNat + wd) hs.2
  obtain rfl := Done.ok.inj (ht'.symm.trans h)
  refine (drain_takesBytes h).takes (hok hs) ?_
  rw [bitsOfBytes_lowBytes, hpartial, BitVec.toNat_ofNat, hnbits, lowBits_mod (by omega), ← lowBits_add,
    Nat.div_add_mod, lowBits_or_shiftLeft hs.1]

/-- `Emit` within its precondition, from a packer in order. -/
theorem emit_ok {c wd : Nat} {s : State} (h1 : 1 ≤ wd) (h2 : wd ≤ 12) (h3 : c < 2 ^ wd) (hs : s.PackerOk) :
    ∃ t, emit c wd s = .ok t ∧ SameButPacker s t ∧ Takes s t (lowBits wd c) := by
  obtain ⟨t, ht, hsame, -⟩ := emit_spec h1 h2 h3 hs.2
  exact ⟨t, ht, hsame, emit_takes hs ht⟩

/-! ### Image data -/

/-- Full sub-blocks in front of image data. -/
theorem ImageData.full_blocks {blocks : List (List Byte)} (hlen : ∀ b ∈ blocks, b.length = 255) {data out : List Byte}
    (h : ImageData data out) : ImageData (blocks.flatten ++ data) (blocks.flatMap (fun b => 0xFF#8 :: b) ++ out) := by
  induction blocks with
  | nil => exact h
  | cons b blocks ih =>
    have htail := ImageData.full b _ _ (hlen b List.mem_cons_self) (ih fun b' hb' => hlen b' (List.mem_cons_of_mem _ hb'))
    simpa [List.append_assoc] using htail

/-- The end of `Close` makes image data of the bytes held (43_code_packer.md R176). -/
theorem closeBlocks_imageData {s : State} (h : s.bufCnt.toNat ≤ 254) :
    ∃ tail, (closeBlocks s).out = s.out ++ tail ∧ ImageData s.heldBytes tail := by
  unfold closeBlocks State.heldBytes
  split
  · next hzero => rw [hzero]; exact ⟨_, rfl, .terminator⟩
  · next hne =>
    have hpos : 1 ≤ s.bufCnt.toNat := by
      rw [← BitVec.toNat_inj, BitVec.toNat_ofNat] at hne
      omega
    have hdata := ImageData.short (s.bufBytes s.bufCnt.toNat) (by simpa using hpos) (by simpa using h)
    rw [State.length_bufBytes] at hdata
    exact ⟨_, by rw [State.outBytes_out, State.flush_out, List.append_assoc], hdata⟩

/-- The first part of `Close`: what was held becomes whole bytes, padded with zero bits (43_code_packer.md R176). -/
theorem closePartial_takesBytes {s : State} (hs : s.PackerOk) :
    ∃ (u : State) (bs : List Byte) (pad : Nat), closePartial s = .ok u ∧ u.bufCnt.toNat ≤ 254 ∧ TakesBytes s u bs
      ∧ pad < 8 ∧ bitsOfBytes bs = lowBits s.nbits.toNat s.partialByte.toNat ++ List.replicate pad false := by
  by_cases hzero : s.nbits = 0#3
  · exact ⟨s, [], 0, if_pos hzero, hs.2, ⟨[], by simp, by simp, by simp⟩, by omega, by simp [hzero, bitsOfBytes]⟩
  · obtain ⟨u, hpush, -, -, -, hcnt, -⟩ := pushByte_spec s.partialByte hs.2
    have hpos : s.nbits.toNat ≠ 0 := fun h => hzero (BitVec.eq_of_toNat_eq h)
    have htakes := pushByte_takesBytes hpush
    have hbits := lowBits_of_lt hs.1 (8 - s.nbits.toNat)
    rw [Nat.add_sub_cancel' (by omega)] at hbits
    refine ⟨{ u with partialByte := 0#8, nbits := 0#3 }, [s.partialByte], 8 - s.nbits.toNat, ?_, hcnt, htakes,
      by omega, ?_⟩
    · rw [closePartial, if_neg hzero, hpush, Done.ok_bind]
    · rw [← hbits, bitsOfBytes_cons]
      exact List.append_nil _

/-- `Close` from a packer in order: everything held goes to `OUT` as image data, and the packer is empty. -/
theorem packClose_ok {s : State} (hs : s.PackerOk) :
    ∃ (t : State) (tail : List Byte), packClose s = .ok t
      ∧ t = { s with nbits := 0#3, partialByte := 0#8, bufCnt := 0#8, buf := t.buf, out := s.out ++ tail }
      ∧ ImageOfBits s.heldBits tail := by
  obtain ⟨u, bs, pad, hpartial, hcnt, ⟨blocks, hlen, hout, hheld⟩, hpad, hbits⟩ := closePartial_takesBytes hs
  obtain ⟨tail, htail, hdata⟩ := closeBlocks_imageData hcnt
  have hclose : packClose s = .ok (closeBlocks u) := by rw [packClose, hpartial, Done.ok_bind]
  obtain ⟨_, ht, hsame, hn, hp, hc, -⟩ := packClose_spec hs.2 hs.partialByte_eq_zero
  obtain rfl := Done.ok.inj (ht.symm.trans hclose)
  rw [hout, List.append_assoc] at htail
  refine ⟨closeBlocks u, _, hclose, ?_, _, pad, hpad, ?_, hdata.full_blocks hlen⟩
  · unfold SameButPacker at hsame
    rwa [hn, hp, hc, htail] at hsame
  · rw [hheld, bitsOfBytes_append, hbits, s.heldBits_eq, List.append_assoc]

/-- Image data of what is held after `bits` went in, behind the sub-blocks sent meanwhile, is image data of all of it. -/
theorem Takes.imageOfBits {s t : State} {bits : List Bool} {tail : List Byte} (h : Takes s t bits)
    (htail : ImageOfBits t.heldBits tail) :
    ∃ tail', t.out ++ tail = s.out ++ tail' ∧ ImageOfBits (s.heldBits ++ bits) tail' := by
  obtain ⟨blocks, hlen, hout, hheld, -⟩ := h
  obtain ⟨data, pad, hpad, hbits, hdata⟩ := htail
  refine ⟨_, by rw [hout, List.append_assoc], _, pad, hpad, ?_, hdata.full_blocks hlen⟩
  rw [bitsOfBytes_append, hbits, ← List.append_assoc, hheld]

end Sys2Proof.Machine
end

section
/-! The beginning and the end of an LZW frame: `LZWBEGIN` (42_lzw_compressor.md R153) and `LZWEND` (R157). -/

namespace Sys2Proof.Machine

/-! ### The checks -/

theorem closedCheck_of_open {w : Word} {s : State} (h : s.active = true) : closedCheck w s = .raised .state w s := by
  simp [closedCheck, h]

theorem openCheck_of_open {w : Word} {s : State} (h : s.active = true) : openCheck w s = .ok s := by
  simp [openCheck, h]

theorem openCheck_of_closed {w : Word} {s : State} (h : s.active = false) : openCheck w s = .raised .state w s := by
  simp [openCheck, h]

theorem State.curIsRoot_of_eq {s : State} (h : s.cur = rootCur) : s.curIsRoot = true := by
  rw [State.curIsRoot, h]
  decide

/-- A code is not the root: the root alone has bit 12 set (10_state.md R40). -/
theorem State.curIsRoot_of_lt {s : State} (h : s.cur.toNat < 4096) : s.curIsRoot = false :=
  Nat.testBit_lt_two_pow h

theorem emptyCheck_of_root {w : Word} {s : State} (h : s.cur = rootCur) : emptyCheck w s = .raised .empty w s := by
  simp [emptyCheck, State.curIsRoot_of_eq h]

theorem emptyCheck_of_code {w : Word} {s : State} (h : s.cur.toNat < 4096) : emptyCheck w s = .ok s := by
  simp [emptyCheck, State.curIsRoot_of_lt h]

/-! ### `LZWBEGIN` -/

section
variable {s : State} (h : s.DepthLegal)
include h

theorem State.toNat_beginFrame_lzwD : s.beginFrame.lzwD.toNat = s.regs.depth.toNat := by
  have := h.2
  rw [State.beginFrame_lzwD, BitVec.toNat_ofNat, Nat.mod_eq_of_lt (by omega)]

theorem State.toNat_beginFrame_codeWidth : s.beginFrame.codeWidth.toNat = s.regs.depth.toNat + 1 := by
  have := h.2
  rw [State.beginFrame_codeWidth, ← State.beginFrame_lzwD, State.toNat_beginFrame_lzwD h, BitVec.toNat_ofNat,
    Nat.mod_eq_of_lt (by omega)]

theorem State.toNat_beginFrame_nextCode : s.beginFrame.nextCode.toNat = 2 ^ s.regs.depth.toNat + 2 := by
  have hpow : 2 ^ s.regs.depth.toNat ≤ 2 ^ 8 := Nat.pow_le_pow_right (by omega) h.2
  rw [State.beginFrame_nextCode, ← State.beginFrame_lzwD, State.toNat_beginFrame_lzwD h, firstCode, BitVec.toNat_ofNat,
    Nat.mod_eq_of_lt (by omega)]

/-- The body of `LZWBEGIN` with a legal depth: a frame is begun, and the packer takes in the leading clear code, if there
is one. -/
theorem beginBody_ok (hs : s.PackerOk) :
    ∃ t, beginBody s = .ok t ∧ SameButPacker s.beginFrame t
      ∧ Takes s t (if s.params.leadingClear then lowBits (s.regs.depth.toNat + 1) (2 ^ s.regs.depth.toNat) else []) := by
  unfold beginBody clearCode
  rw [State.toNat_beginFrame_lzwD h, State.toNat_beginFrame_codeWidth h]
  split
  · exact emit_ok (s := s.beginFrame) (by omega) (by have := h.2; omega) (Nat.pow_lt_pow_succ (by omega)) hs
  · exact ⟨s.beginFrame, rfl, .refl _, .refl hs⟩

theorem exec_lzwbegin_legal (hclosed : s.active = false) : exec .lzwbegin s = finish (beginBody s) := by
  rw [exec_eq_finish, commandBody, closedCheck_of_closed hclosed, Done.ok_bind, depthCheck_legal h, Done.ok_bind]

end

/-- Settles O26: the checks raise in the state they find; after them the packer, being empty, takes in at most the nine
bits of one clear code, which fill no sub-block. -/
theorem lzwbeginOpensFrame : Obligations.LzwbeginOpensFrame := by
  intro s
  refine ⟨fun hopen => ?_, fun hclosed hdepth => ?_, fun hclosed hdepth hnbits hpartial hcnt => ?_⟩
  · rw [exec_eq_finish, commandBody, closedCheck_of_open hopen]
    rfl
  · rw [exec_eq_finish, commandBody, closedCheck_of_closed hclosed, Done.ok_bind, depthCheck_illegal hdepth]
    rfl
  · obtain ⟨t, ht, hsame, htakes⟩ := beginBody_ok hdepth (by simp [State.PackerOk, hnbits, hpartial, hcnt])
    have hempty : s.heldBits = [] := by simp [State.heldBits, State.bufBytes, bitsOfBytes, hnbits, hcnt]
    have hshort : (if s.params.leadingClear then lowBits (s.regs.depth.toNat + 1) (2 ^ s.regs.depth.toNat) else []).length
        < 8 * 255 := by
      have := hdepth.2
      split
      · rw [length_lowBits]; omega
      · decide
    obtain ⟨hout, hheld⟩ := htakes.of_short (by rwa [hempty])
    rw [hempty, List.nil_append] at hheld
    have hframe : t.lzwD = s.beginFrame.lzwD ∧ t.codeWidth = s.beginFrame.codeWidth
        ∧ t.nextCode = s.beginFrame.nextCode ∧ t.trie = [] := by rw [hsame]; exact ⟨rfl, rfl, rfl, rfl⟩
    obtain ⟨hlzwD, hwidth, hnext, htrie⟩ := hframe
    refine ⟨{ t with pc := t.pc + 1#32 }, ?_, ?_, ?_, ?_, ?_, ?_, hheld, htakes.packerOk⟩
    · rw [exec_lzwbegin_legal hdepth hclosed, ht, finish_ok]
    · unfold SameButPacker at hsame
      rw [hout] at hsame
      rw [hsame]
      rfl
    · exact hlzwD ▸ State.toNat_beginFrame_lzwD hdepth
    · exact hwidth ▸ State.toNat_beginFrame_codeWidth hdepth
    · exact hnext ▸ State.toNat_beginFrame_nextCode hdepth
    · intro c v
      show Memory.read trieNone t.trie _ = none
      rw [htrie]
      rfl

/-! ### `LZWEND` -/

/-- The body of `LZWEND` from a packer in order: last code and stop code in the one width, then `Close`. -/
theorem endBody_ok {s : State} (hcur : s.cur.toNat < 2 ^ s.codeWidth.toNat) (h1 : 1 ≤ s.codeWidth.toNat)
    (h2 : s.codeWidth.toNat ≤ 12) (hstop : stopCode s.lzwD.toNat < 2 ^ s.codeWidth.toNat) (hs : s.PackerOk) :
    ∃ (t : State) (tail : List Byte), endBody s = .ok t
      ∧ t = { s with
          active := false, cur := rootCur, nbits := 0#3, partialByte := 0#8, bufCnt := 0#8
          buf := t.buf, trie := t.trie, freeCtr := t.freeCtr, out := s.out ++ tail }
      ∧ ImageOfBits
          (s.heldBits ++ lowBits s.codeWidth.toNat s.cur.toNat ++ lowBits s.codeWidth.toNat (stopCode s.lzwD.toNat))
          tail := by
  obtain ⟨u, hu, husame, hutakes⟩ := emit_ok h1 h2 hcur hs
  have huregs : u.lzwD = s.lzwD ∧ u.codeWidth = s.codeWidth := by rw [husame]; exact ⟨rfl, rfl⟩
  obtain ⟨hlzwD, hwidth⟩ := huregs
  obtain ⟨v, hv, hvsame, hvtakes⟩ := emit_ok h1 h2 hstop hutakes.packerOk
  obtain ⟨w, tail, hw, hwsame, himage⟩ := packClose_ok hvtakes.packerOk
  obtain ⟨tail', hout, himage'⟩ := (hutakes.trans hvtakes).imageOfBits himage
  refine ⟨w.closeFrame.curRoot.discardTrie, tail', ?_, ?_, ?_⟩
  · rw [endBody, hu, Done.ok_bind, hlzwD, hwidth, hv, Done.ok_bind, hw, Done.ok_bind]
  · rw [hout] at hwsame
    rw [hwsame, husame.trans hvsame]
    rfl
  · rwa [List.append_assoc]

/-- Settles O31: the checks raise in the state they find; `CUR` holding a code, both codes fit the width and the body
ends the image data. -/
theorem lzwendClosesFrame : Obligations.LzwendClosesFrame := by
  intro s
  refine ⟨fun hclosed => ?_, fun hopen hroot => ?_, fun hopen hcur h1 h2 hstop hs => ?_⟩
  · rw [exec_eq_finish, commandBody, openCheck_of_closed hclosed]
    rfl
  · rw [exec_eq_finish, commandBody, openCheck_of_open hopen, Done.ok_bind, emptyCheck_of_root hroot]
    rfl
  · obtain ⟨t, tail, ht, hsame, himage⟩ := endBody_ok hcur h1 h2 hstop hs
    have hcode : s.cur.toNat < 4096 := hcur.trans_le (Nat.pow_le_pow_right (by omega) h2)
    refine ⟨{ t with pc := t.pc + 1#32 }, tail, ?_, ?_, himage⟩
    · rw [exec_eq_finish, commandBody, openCheck_of_open hopen, Done.ok_bind, emptyCheck_of_code hcode, Done.ok_bind, ht,
        finish_ok]
    · rw [hsame]
      rfl

end Sys2Proof.Machine
end

section
/-! The obligations about the code packer alone: `Emit` (43_code_packer.md R172), `PushByte` (R173), `Close` (R176). -/

namespace Sys2Proof.Machine

/-- Settles O22: the bits are `emit_takes`, the counters and what is left alone `emit_spec`. -/
theorem emitAppendsCodeBits : Obligations.EmitAppendsCodeBits := by
  intro c wd s h1 h2 h3 hs
  obtain ⟨t, ht, hsame, -, -, hnbits, hcnt, -⟩ := emit_spec h1 h2 h3 hs.2
  exact ⟨t, ht, emit_takes hs ht, hsame, hnbits, hcnt⟩

/-- Settles O25: `Close` from a packer in order. -/
theorem closeEndsImageData : Obligations.CloseEndsImageData := fun _ => packClose_ok

/-- A byte just written stands at its address of `BUF`, and every other byte is as it was. -/
theorem State.readBuf_writeBuf_frame (s : State) (n : Nat) (b : Byte) :
    (s.writeBuf n b).readBuf n = b ∧ ∀ a, a ≠ n → (s.writeBuf n b).readBuf a = s.readBuf a :=
  ⟨by rw [State.readBuf_writeBuf, if_pos rfl], fun a ha => by rw [State.readBuf_writeBuf, if_neg ha.symm]⟩

/-- Settles O23: below 254 the byte stays in `BUF`; at 254 it is the last byte of the sub-block sent out. -/
theorem pushByteFlushesAt255 : Obligations.PushByteFlushesAt255 := by
  intro b s
  refine ⟨fun hlt => ⟨_, pushByte_of_lt hlt, ?_, s.readBuf_writeBuf_frame _ b⟩,
    fun heq => ⟨_, pushByte_of_eq heq, ?_, s.readBuf_writeBuf_frame _ b⟩⟩
  · rw [BitVec.ofNat_add, BitVec.ofNat_toNat, BitVec.setWidth_eq]
    rfl
  · rw [s.bufBytes_writeBuf 254 b]
    rfl

end Sys2Proof.Machine
end

section
/-! The obligation about taking a fault (60_exceptions.md R184, decision D22), with the codes of the table of R182. -/

namespace Sys2Proof.Machine

/-- Taking a fault as one update of the fault record. -/
theorem State.takeFault_eq_update (s : State) (e : ErrCode) (info : Word) :
    s.takeFault e info = { s with fault := true, err := e.code, errInfo := info } := rfl

/-- The codes of R182, in the table's order. -/
theorem ErrCode.map_code_toNat :
    [ErrCode.illCmd, .illReg, .cfg, .region, .state, .pixRange, .empty, .noMatch, .maskLim].map (fun e => e.code.toNat)
      = [1, 2, 3, 4, 5, 6, 7, 8, 9] := by decide

/-- Settles O38: the frame is the one update `takeFault` makes, the number in `ERR` is the fault's code, and a command that
raised ends by taking its fault. -/
theorem faultEntryWritesFaultRecord : Obligations.FaultEntryWritesFaultRecord := by
  intro s info
  refine ⟨fun e => ?_, ?_, fun e t => finish_raised e info t⟩
  · rw [State.takeFault_err]
    exact s.takeFault_eq_update e info
  · simp only [State.takeFault_err]
    exact ErrCode.map_code_toNat

end Sys2Proof.Machine
end

section
/-! Decoding and encoding are inverse to each other (30_encoding.md Part A). -/

namespace Sys2Proof

/-- A word with an opcode without operand field and nothing else set is the command of that opcode. -/
theorem decode_wordOf_plain {opc : Byte} (hk : opc ∈ knownOpcodes) (hset : opc ≠ 0x01#8) (hpix : opc ≠ 0x21#8) :
    decode (wordOf opc 0#8 0#16) = plainCommand opc := by
  simp [decode, hk, hset, hpix]

theorem decode_wordOf_set {ra : Byte} (hra : raLegal ra = true) (imm : Half) :
    decode (wordOf 0x01#8 ra imm) = .ok (.set ra imm) := by
  simp [decode, knownOpcodes, hra]

theorem decode_wordOf_lzwpix (v : Byte) : decode (wordOf 0x21#8 0#8 (0#8 ++ v)) = .ok (.lzwpix v) := by
  simp [decode, knownOpcodes]

/-- Settles O1: one lemma per format; the eight commands without operands share `decode_wordOf_plain`. -/
theorem decodeOfEncodeIsInstruction : Obligations.DecodeOfEncodeIsInstruction := by
  intro i hi
  cases i with
  | set ra imm => exact decode_wordOf_set hi imm
  | lzwpix v => exact decode_wordOf_lzwpix v
  | nop => exact decode_wordOf_plain (by decide) (by decide) (by decide)
  | pbuild => exact decode_wordOf_plain (by decide) (by decide) (by decide)
  | pmask => exact decode_wordOf_plain (by decide) (by decide) (by decide)
  | pindex => exact decode_wordOf_plain (by decide) (by decide) (by decide)
  | quant => exact decode_wordOf_plain (by decide) (by decide) (by decide)
  | lzwbegin => exact decode_wordOf_plain (by decide) (by decide) (by decide)
  | lzwend => exact decode_wordOf_plain (by decide) (by decide) (by decide)
  | lzwenc => exact decode_wordOf_plain (by decide) (by decide) (by decide)

/-- The one ill-formed instruction is a `SET` beyond the register table, and its word is refused. -/
theorem wellFormed_of_decode {w : Word} {i : Instr} (h : decode w = .ok i) : i.wellFormed = true := by
  cases i with
  | set ra imm =>
    by_contra hra
    have hw : IllegalSet w := by
      rw [← encode_of_decode h]
      simp only [Instr.wellFormed, raLegal, decide_eq_true_eq] at hra
      exact ⟨opcField_wordOf .., by rw [encode, raField_wordOf]; omega⟩
    rw [decode_of_illegalSet hw] at h
    cases h
  | _ => rfl

/-- Settles O2: `encode_of_decode` and `wellFormed_of_decode`. -/
theorem encodeOfDecodeIsWord : Obligations.EncodeOfDecodeIsWord := fun _ _ h =>
  ⟨encode_of_decode h, wellFormed_of_decode h⟩

/-- Settles O4: ten words decoded. -/
theorem sampleWordsDecode : Obligations.SampleWordsDecode := by
  unfold Obligations.SampleWordsDecode
  decide

end Sys2Proof
end

section
/-! The execution cycle (40_control_commands.md R120): what a step and a host move can do, and what follows for `PC`, the
queue, `OUT` and the parameters. -/

namespace Sys2Proof.Machine

/-! ### What a step can do -/

section
variable {s t : State} {w : Word} {rest : List Word}

theorem step_of_empty (hq : s.cmdq = []) : step s = .next s := by
  cases hf : s.fault <;> simp [step, sequencerTurn, State.fetch, hf, hq]

theorem step_of_queued (hf : s.fault = false) (hq : s.cmdq = w :: rest) :
    step s = execWord w { s with cmdq := rest } := by
  simp [step, sequencerTurn, State.fetch, hf, hq]

theorem execWord_of_decode {i : Instr} (h : decode w = .ok i) : execWord w s = exec i s := by
  simp only [execWord, h]

theorem execWord_of_decodeError {e : DecodeError} (h : decode w = .error e) :
    execWord w s = .next (s.takeFault (decodeErrCode e) w) := by
  simp only [execWord, h, finish_raised]

/-- A step of a quiescent block changes nothing; otherwise the head of the queue is taken and executed. -/
theorem step_cases (s : State) :
    (s.quiescent = true ∧ step s = .next s)
      ∨ ∃ w rest, s.fault = false ∧ s.cmdq = w :: rest ∧ step s = execWord w { s with cmdq := rest } := by
  by_cases hf : s.fault = true
  · exact .inl ⟨by simp [State.quiescent, hf], step_of_fault hf⟩
  rcases hq : s.cmdq with _ | ⟨w, rest⟩
  · exact .inl ⟨by simp [State.quiescent, hq], step_of_empty hq⟩
  · rw [Bool.not_eq_true] at hf
    exact .inr ⟨w, rest, hf, rfl, step_of_queued hf hq⟩

/-- A command ends after a body that kept to its unit: `PC` advanced, or a fault taken. -/
theorem exec_frame {i : Instr} (h : exec i s = .next t) :
    ∃ u, UnitFrame s u ∧ (t = { u with pc := u.pc + 1#32 } ∨ ∃ e info, t = u.takeFault e info) :=
  (commandBody_frame i s).of_finish (exec_eq_finish i s ▸ h)

/-- The same for a word, which may also be no command. -/
theorem execWord_frame (h : execWord w s = .next t) :
    ∃ u, UnitFrame s u ∧ (t = { u with pc := u.pc + 1#32 } ∨ ∃ e info, t = u.takeFault e info) := by
  cases hd : decode w with
  | ok i => exact exec_frame (execWord_of_decode hd ▸ h)
  | error e =>
    rw [execWord_of_decodeError hd] at h
    cases h
    exact ⟨s, .control rfl, .inr ⟨_, _, rfl⟩⟩

end

/-! ### What no unit owns -/

section
variable {s t : State} (h : UnitFrame s t)
include h

theorem UnitFrame.pc : t.pc = s.pc := by
  cases h with
  | control h => rw [h]
  | palette h => rw [h]
  | lzw h => rw [h.1]

theorem UnitFrame.cmdq : t.cmdq = s.cmdq := by
  cases h with
  | control h => rw [h]
  | palette h => rw [h]
  | lzw h => rw [h.1]

theorem UnitFrame.params : t.params = s.params := by
  cases h with
  | control h => rw [h]
  | palette h => rw [h]
  | lzw h => rw [h.1]

/-- Only the LZW unit writes to `OUT`, and it appends. -/
theorem UnitFrame.out : s.out <+: t.out := by
  cases h with
  | control h => rw [h]
  | palette h => rw [h]
  | lzw h => exact h.2

end

/-- A move of the host other than reset writes the queue, `TC`, `PAL` and `IDX` only. -/
theorem hostMove_frame {m : HostMove} {s t : State} (h : hostMove m s = .next t) :
    (∃ c, m = .reset c ∧ t = s.takeReset c)
      ∨ t = { s with cmdq := t.cmdq, tc := t.tc, pal := t.pal, idx := t.idx } := by
  cases m with
  | append w => cases h; exact .inr rfl
  | reset c => cases h; exact .inl ⟨c, rfl, rfl⟩
  | writeTc a p => obtain ⟨-, rfl⟩ := hostWrite_eq_next.1 h; exact .inr rfl
  | writePal a p => obtain ⟨-, rfl⟩ := hostWrite_eq_next.1 h; exact .inr rfl
  | writeIdx a b => obtain ⟨-, rfl⟩ := hostWrite_eq_next.1 h; exact .inr rfl

/-! ### The obligations -/

/-- Settles O5: the word is taken and its command run. -/
theorem stepRunsDecodedCommand : Obligations.StepRunsDecodedCommand := by
  intro s w rest i hf hq hd
  rw [step_of_queued hf hq, execWord_of_decode hd]

/-- Settles O6: the word is taken and its decoding fault taken. -/
theorem stepTakesDecodeFault : Obligations.StepTakesDecodeFault := by
  intro s w rest e hf hq hd
  rw [step_of_queued hf hq, execWord_of_decodeError hd]
  cases e <;> rfl

/-- Settles O7: `step_of_empty` and `step_of_fault`. -/
theorem quiescentBlockStays : Obligations.QuiescentBlockStays := fun _ =>
  ⟨step_of_empty, fun hf _ => step_of_fault hf⟩

/-- Settles O8: no command body writes the queue or `PC`; `finish` advances `PC` exactly when it takes no fault. -/
theorem pcAdvancesUnlessFault : Obligations.PcAdvancesUnlessFault := by
  intro s t w rest hf hq h
  rw [step_of_queued hf hq] at h
  obtain ⟨u, hu, rfl | ⟨e, info, rfl⟩⟩ := execWord_frame h
  · refine ⟨hu.cmdq, ?_⟩
    rw [if_neg (by simp [hu.fault, hf])]
    simp [hu.pc]
  · exact ⟨hu.cmdq, by simp [hu.pc]⟩

/-- Settles O42: every command keeps to its unit, and the only unit that writes `OUT` appends. -/
theorem outIsAppendOnly : Obligations.OutIsAppendOnly := by
  intro s t
  refine ⟨fun i h => ?_, fun h => ?_, fun m h => ?_⟩
  · obtain ⟨u, hu, rfl | ⟨e, info, rfl⟩⟩ := exec_frame h <;> exact hu.out
  · obtain ⟨-, hstep⟩ | ⟨w, rest, -, -, hstep⟩ := step_cases s
    · cases hstep.symm.trans h
      exact List.prefix_rfl
    · obtain ⟨u, hu, rfl | ⟨e, info, rfl⟩⟩ := execWord_frame (hstep.symm.trans h) <;> exact hu.out
  · obtain ⟨c, hm, -⟩ | ht := hostMove_frame h
    · exact .inr ⟨c, hm⟩
    · exact .inl (by rw [ht])

/-- Settles O51: no unit owns the parameters, and `takeReset` hands them on. -/
theorem parametersNeverChange : Obligations.ParametersNeverChange := by
  intro s t
  refine ⟨fun h => ?_, fun i h => ?_, fun m h => ?_⟩
  · obtain ⟨-, hstep⟩ | ⟨w, rest, -, -, hstep⟩ := step_cases s
    · cases hstep.symm.trans h
      rfl
    · obtain ⟨u, hu, rfl | ⟨e, info, rfl⟩⟩ := execWord_frame (hstep.symm.trans h) <;> exact hu.params
  · obtain ⟨u, hu, rfl | ⟨e, info, rfl⟩⟩ := exec_frame h <;> exact hu.params
  · obtain ⟨c, -, rfl⟩ | ht := hostMove_frame h
    · rfl
    · rw [ht]

end Sys2Proof.Machine
end

section
/-! No command body reads the queue or `PC`: it does the same in a state where these are replaced. From this an appended word
waits for all earlier ones (70_reset_and_hazards.md section 3). -/

namespace Sys2Proof.Machine

/-- The state with the queue changed by `g` and `PC` by `h`. -/
def State.onCycle (s : State) (g : List Word → List Word) (h : BitVec 32 → BitVec 32) : State :=
  { s with cmdq := g s.cmdq, pc := h s.pc }

/-- The same change in the state a part ends or raises in. -/
def Done.map (f : State → State) : Done → Done
  | .ok s => .ok (f s)
  | .raised e info s => .raised e info (f s)
  | .stopped r => .stopped r

/-- The body neither reads nor writes the queue and `PC`. -/
def CycleBlind (body : State → Done) : Prop := ∀ s g h, body (s.onCycle g h) = (body s).map (·.onCycle g h)

theorem CycleBlind.ok : CycleBlind .ok := fun _ _ _ => rfl

/-- Two blind parts in turn; the first may be chosen by registers that a change of queue and `PC` leaves alone. -/
theorem Done.bind_onCycle {x x' : Done} {f : State → Done} {g : List Word → List Word} {h : BitVec 32 → BitVec 32}
    (hx : x' = x.map (·.onCycle g h)) (hf : CycleBlind f) : x'.bind f = (x.bind f).map (·.onCycle g h) := by
  subst hx
  cases x with
  | ok s => exact hf s g h
  | raised e info s => rfl
  | stopped r => rfl

theorem CycleBlind.bind {body f : State → Done} (hb : CycleBlind body) (hf : CycleBlind f) :
    CycleBlind fun s => (body s).bind f :=
  fun s g h => Done.bind_onCycle (hb s g h) hf

theorem CycleBlind.forFrom {body : Nat → State → Done} (hb : ∀ k, CycleBlind (body k)) (n a : Nat) :
    CycleBlind (Machine.forFrom n a body) := by
  induction n generalizing a with
  | zero => exact CycleBlind.ok
  | succ n ih => exact (hb a).bind (ih (a + 1))

/-- A test of anything but the queue and `PC`, which comes out the same. -/
theorem Done.ite_onCycle {c : Prop} [Decidable c] {x x' y y' : Done} {g : List Word → List Word}
    {h : BitVec 32 → BitVec 32} (hx : x' = x.map (·.onCycle g h)) (hy : y' = y.map (·.onCycle g h)) :
    (if c then x' else y') = (if c then x else y).map (·.onCycle g h) := by
  split
  · exact hx
  · exact hy

/-! ### The checks -/

section
variable (w : Word)

theorem frameCheck_blind : CycleBlind (frameCheck w) := fun _ _ _ => Done.ite_onCycle rfl rfl

theorem maxsizeCheck_blind : CycleBlind (maxsizeCheck w) := fun _ _ _ => Done.ite_onCycle rfl rfl

theorem depthCheck_blind : CycleBlind (depthCheck w) := fun _ _ _ => Done.ite_onCycle rfl rfl

theorem regionCheck_blind : CycleBlind (regionCheck w) := fun _ _ _ => Done.ite_onCycle rfl rfl

theorem closedCheck_blind : CycleBlind (closedCheck w) := fun _ _ _ => Done.ite_onCycle rfl rfl

theorem openCheck_blind : CycleBlind (openCheck w) := fun _ _ _ => Done.ite_onCycle rfl rfl

theorem emptyCheck_blind : CycleBlind (emptyCheck w) := fun _ _ _ => Done.ite_onCycle rfl rfl

theorem maskLimCheck_blind : CycleBlind (maskLimCheck w) := fun _ _ _ => Done.ite_onCycle rfl rfl

end

/-! ### The packer -/

theorem pushByte_blind (b : Byte) : CycleBlind (pushByte b) := fun _ _ _ =>
  Done.ite_onCycle rfl (Done.ite_onCycle rfl rfl)

theorem drain_blind (k acc n : Nat) : CycleBlind (drain k acc n) := by
  induction k generalizing acc n with
  | zero => exact fun _ _ _ => rfl
  | succ k ih => exact (pushByte_blind _).bind (ih _ _)

theorem emit_blind (c wd : Nat) : CycleBlind (emit c wd) := fun s g h =>
  Done.ite_onCycle (drain_blind _ _ _ s g h) rfl

theorem closePartial_blind : CycleBlind closePartial := fun s g h =>
  Done.ite_onCycle rfl (Done.bind_onCycle (pushByte_blind s.partialByte s g h) fun _ _ _ => rfl)

theorem closeBlocks_onCycle (s : State) (g : List Word → List Word) (h : BitVec 32 → BitVec 32) :
    closeBlocks (s.onCycle g h) = (closeBlocks s).onCycle g h := by
  unfold closeBlocks
  by_cases hz : s.bufCnt = 0#8
  · rw [if_pos hz, if_pos (show (s.onCycle g h).bufCnt = 0#8 from hz)]
    rfl
  · rw [if_neg hz, if_neg (show (s.onCycle g h).bufCnt ≠ 0#8 from hz)]
    rfl

theorem packClose_blind : CycleBlind packClose :=
  closePartial_blind.bind fun s g h => congrArg Done.ok (closeBlocks_onCycle s g h)

/-! ### The LZW unit -/

theorem afterMiss_blind (v : Byte) : CycleBlind (afterMiss v) := fun s g h =>
  Done.ite_onCycle rfl (Done.bind_onCycle (emit_blind _ _ s g h) fun _ _ _ => rfl)

theorem pixStep_blind (v : Byte) (info : Word) : CycleBlind (pixStep v info) := fun s g h => by
  refine Done.ite_onCycle rfl (Done.ite_onCycle rfl ?_)
  show (match s.readTrie s.cur.toNat v with | some c => _ | none => _) = _
  cases s.readTrie s.cur.toNat v with
  | some c => rfl
  | none => exact Done.bind_onCycle (emit_blind _ _ s g h) (afterMiss_blind v)

theorem beginBody_blind : CycleBlind beginBody := fun s g h =>
  Done.ite_onCycle (emit_blind _ _ s.beginFrame g h) rfl

theorem endBody_blind : CycleBlind endBody := fun s g h =>
  Done.bind_onCycle (emit_blind _ _ s g h) fun s g h =>
    Done.bind_onCycle (emit_blind _ _ s g h) (packClose_blind.bind fun _ _ _ => rfl)

theorem scanRow_blind (n a : Nat) : CycleBlind (scanRow n a) :=
  CycleBlind.forFrom (fun k s => pixStep_blind (s.readIdx k) (BitVec.ofNat 32 k) s) n a

theorem scanRegion_blind : CycleBlind scanRegion := fun s =>
  CycleBlind.forFrom (body := fun i s => scanRow s.regs.regW.toNat (s.pixelAddr i s.regs.regX.toNat) s)
    (fun i s => scanRow_blind s.regs.regW.toNat (s.pixelAddr i s.regs.regX.toNat) s)
    s.regs.regH.toNat s.regs.regY.toNat s

theorem lzwencBody_blind (w : Word) : CycleBlind (lzwencBody w) :=
  (closedCheck_blind w).bind <| (depthCheck_blind w).bind <| (frameCheck_blind w).bind <|
    (regionCheck_blind w).bind <| beginBody_blind.bind <| scanRegion_blind.bind endBody_blind

/-! ### The palette quantizer -/

theorem pbuildScan_blind (n k size : Nat) : CycleBlind (pbuildScan n k size) := by
  induction n generalizing k size with
  | zero => exact fun _ _ _ => rfl
  | succ n ih =>
    intro s g h
    show (match s.palFind size (s.readTc k) with | some _ => _ | none => _) = _
    rw [pbuildScan]
    cases s.palFind size (s.readTc k) with
    | some m => exact ih _ _ s g h
    | none => exact Done.ite_onCycle rfl (ih (k + 1) (size + 1) (s.writePal size (s.readTc k)) g h)

theorem pbuildBody_blind (w : Word) : CycleBlind (pbuildBody w) :=
  (frameCheck_blind w).bind <| (maxsizeCheck_blind w).bind fun s =>
    pbuildScan_blind (s.frameArea - 1) 1 1 (s.writePal 0 (s.readTc 0))

theorem pmaskBody_blind (w : Word) : CycleBlind (pmaskBody w) :=
  (frameCheck_blind w).bind <| (maskLimCheck_blind w).bind fun s g h =>
    CycleBlind.forFrom (fun _ _ _ _ => rfl) _ _ (s.setCfg .maskStep _) g h

theorem pindexPixel_blind (k : Nat) : CycleBlind (pindexPixel k) := fun s g h => by
  refine Done.ite_onCycle rfl ?_
  show (match s.palFind s.palSize.toNat (s.readTc k) with | none => _ | some _ => _) = _
  cases s.palFind s.palSize.toNat (s.readTc k) <;> rfl

theorem pindexBody_blind (w : Word) : CycleBlind (pindexBody w) :=
  (frameCheck_blind w).bind fun s g h => CycleBlind.forFrom pindexPixel_blind _ _ s g h

theorem quantLoop_blind (w : Word) (n : Nat) : CycleBlind (quantLoop w n) := by
  induction n with
  | zero => exact fun s g h => Done.ite_onCycle (pmaskBody_blind w s g h) rfl
  | succ n ih => exact fun s g h => Done.ite_onCycle ((pmaskBody_blind w).bind ((pbuildBody_blind w).bind ih) s g h) rfl

theorem quantBody_blind (w : Word) : CycleBlind (quantBody w) :=
  (frameCheck_blind w).bind <| (maxsizeCheck_blind w).bind fun s g h =>
    Done.bind_onCycle (pbuildBody_blind w (s.setCfg .maskStep 0#16) g h) ((quantLoop_blind w 8).bind (pindexBody_blind w))

/-! ### Every command -/

theorem commandBody_blind (i : Instr) : CycleBlind (commandBody i) := by
  cases i with
  | nop => exact CycleBlind.ok
  | set ra imm =>
    intro s g h
    show setBody ra imm _ = (setBody ra imm s).map _
    unfold setBody
    cases cfgRegOf ra <;> rfl
  | pbuild => exact pbuildBody_blind _
  | pmask => exact pmaskBody_blind _
  | pindex => exact pindexBody_blind _
  | quant => exact quantBody_blind _
  | lzwbegin => exact (closedCheck_blind _).bind ((depthCheck_blind _).bind beginBody_blind)
  | lzwpix v => exact (openCheck_blind _).bind (pixStep_blind v _)
  | lzwend => exact (openCheck_blind _).bind ((emptyCheck_blind _).bind endBody_blind)
  | lzwenc => exact lzwencBody_blind _

/-- A command does the same with another queue. -/
theorem exec_onQueue {i : Instr} {s t : State} (h : exec i s = .next t) (g : List Word → List Word) :
    exec i { s with cmdq := g s.cmdq } = .next { t with cmdq := g t.cmdq } := by
  have hblind : commandBody i { s with cmdq := g s.cmdq } = (commandBody i s).map (·.onCycle g id) :=
    commandBody_blind i s g id
  rw [exec_eq_finish] at h ⊢
  rw [hblind]
  obtain ⟨u, hu, rfl⟩ | ⟨e, info, u, hu, rfl⟩ := finish_eq_next.1 h <;> rw [hu] <;> rfl

/-- Settles O57: with a word queued the step is that of the head, which the words behind it do not change; in fault both
steps leave their states alone. -/
theorem appendedWordWaitsForEarlierWords : Obligations.AppendedWordWaitsForEarlierWords := by
  intro s t u w hq hs hu
  cases hu
  by_cases hf : s.fault = true
  · obtain rfl : s = t := Host.Outcome.next.inj ((step_of_fault hf).symm.trans hs)
    exact step_of_fault hf
  rw [Bool.not_eq_true] at hf
  obtain ⟨head, rest, hcons⟩ := List.exists_cons_of_ne_nil (hq.resolve_right (by simp [hf]))
  rw [step_of_queued hf hcons] at hs
  rw [step_of_queued (s := { s with cmdq := s.cmdq ++ [w] }) (w := head) (rest := rest ++ [w]) hf (by simp [hcons])]
  cases hd : decode head with
  | ok i =>
    rw [execWord_of_decode hd] at hs ⊢
    exact exec_onQueue hs (· ++ [w])
  | error e =>
    rw [execWord_of_decodeError hd] at hs ⊢
    cases hs
    rfl

end Sys2Proof.Machine
end

section
/-! The host's view (70_reset_and_hazards.md R200, R207, R208), and the model's choices. -/

namespace Sys2Proof.Machine

/-! ### Registers by number -/

/-- Settles O52: the three flags are the three low bits of the register, in each of the eight cases. -/
theorem statusWordLayout : Obligations.StatusWordLayout := by
  intro s
  unfold State.statusWord
  generalize s.active = a, s.ovf = o, s.fault = f
  revert a o f
  decide

/-- The port numbers that name nothing, each in a gap of the table of 70_reset_and_hazards.md R207. -/
theorem State.portValue_unnamed (s : State) {port : Byte}
    (h : (9 ≤ port.toNat ∧ port.toNat ≤ 15) ∨ (0x15 ≤ port.toNat ∧ port.toNat ≤ 0x17) ∨ 0x1F ≤ port.toNat) :
    s.portValue port = none := by
  have hcfg : cfgRegOf port = none := cfgRegOf_eq_none_of_gt (by omega)
  have hne : ∀ n : Byte, n.toNat ∈ [0x10, 0x11, 0x12, 0x13, 0x14, 0x18, 0x19, 0x1A, 0x1B, 0x1C, 0x1D, 0x1E] →
      port ≠ n := by
    rintro n hn rfl
    simp only [List.mem_cons, List.not_mem_nil, or_false] at hn
    omega
  simp only [State.portValue, hcfg]
  rw [if_neg (hne 0x10#8 (by decide)), if_neg (hne 0x11#8 (by decide)), if_neg (hne 0x12#8 (by decide)),
    if_neg (hne 0x13#8 (by decide)), if_neg (hne 0x14#8 (by decide)), if_neg (hne 0x18#8 (by decide)),
    if_neg (hne 0x19#8 (by decide)), if_neg (hne 0x1A#8 (by decide)), if_neg (hne 0x1B#8 (by decide)),
    if_neg (hne 0x1C#8 (by decide)), if_neg (hne 0x1D#8 (by decide)), if_neg (hne 0x1E#8 (by decide))]

theorem State.hostReadPort_busy {s : State} (h : s.quiescent = false) (port : Byte) : s.hostReadPort port = none := by
  simp [State.hostReadPort, h]

/-! ### Elements -/

section
variable (s : State) (a : Nat)

theorem State.readTc_writeTc_frame (p : Pixel) :
    (s.writeTc a p).readTc a = p ∧ ∀ b, b ≠ a → (s.writeTc a p).readTc b = s.readTc b :=
  ⟨by rw [State.readTc_writeTc, if_pos rfl], fun b hb => by rw [State.readTc_writeTc, if_neg hb.symm]⟩

theorem State.readPal_writePal_frame (p : Pixel) :
    (s.writePal a p).readPal a = p ∧ ∀ b, b ≠ a → (s.writePal a p).readPal b = s.readPal b :=
  ⟨by rw [State.readPal_writePal, if_pos rfl], fun b hb => by rw [State.readPal_writePal, if_neg hb.symm]⟩

theorem State.readIdx_writeIdx_frame (v : Byte) :
    (s.writeIdx a v).readIdx a = v ∧ ∀ b, b ≠ a → (s.writeIdx a v).readIdx b = s.readIdx b :=
  ⟨by rw [State.readIdx_writeIdx, if_pos rfl], fun b hb => by rw [State.readIdx_writeIdx, if_neg hb.symm]⟩

end

/-- Settles O53: quiescent, the named ports read by `portValue` and the element writes are `hostWrite` inside its space;
otherwise both are refused. -/
theorem hostAccessByNumberWhileQuiescent : Obligations.HostAccessByNumberWhileQuiescent := by
  intro s
  refine ⟨fun hq => ?_, fun port hport => ?_, fun hq port a p b => ?_, fun hq a p ha => ?_, fun hq a p ha => ?_,
    fun hq a v ha => ?_⟩
  · simp only [State.hostReadPort_quiescent hq]
    exact ⟨rfl, rfl, rfl, rfl, rfl, rfl, rfl, rfl, rfl, rfl, rfl, rfl, rfl, rfl, rfl, rfl, rfl, rfl, rfl, rfl, rfl⟩
  · cases hq : s.quiescent with
    | true => rw [State.hostReadPort_quiescent hq, s.portValue_unnamed hport]
    | false => exact State.hostReadPort_busy hq port
  · exact ⟨State.hostReadPort_busy hq port, hostWrite_refused hq, hostWrite_refused hq, hostWrite_refused hq⟩
  · exact ⟨_, hostWrite_inside hq ha, rfl, s.readTc_writeTc_frame a p⟩
  · exact ⟨_, hostWrite_inside hq ha, rfl, s.readPal_writePal_frame a p⟩
  · exact ⟨_, hostWrite_inside hq ha, rfl, s.readIdx_writeIdx_frame a v⟩

/-- Settles O54: every element read is `hostReadElement`, which asks for quiescence and the range. -/
theorem hostReadsElementsAndOutputWhileQuiescent : Obligations.HostReadsElementsAndOutputWhileQuiescent := by
  intro s a
  refine ⟨fun hq => ⟨fun ha => ⟨?_, ?_⟩, fun ha => ?_, if_pos hq⟩, fun hq => ⟨?_, ?_, ?_, ?_⟩⟩
  · exact State.hostReadElement_eq_some.2 ⟨⟨hq, ha⟩, rfl⟩
  · exact State.hostReadElement_eq_some.2 ⟨⟨hq, ha⟩, rfl⟩
  · exact State.hostReadElement_eq_some.2 ⟨⟨hq, ha⟩, rfl⟩
  · exact State.hostReadElement_eq_none.2 (.inl hq)
  · exact State.hostReadElement_eq_none.2 (.inl hq)
  · exact State.hostReadElement_eq_none.2 (.inl hq)
  · simp [State.hostReadOut, hq]

/-- Settles O55: beyond the space `hostReadElement` gives nothing and `hostWrite` stops. -/
theorem hostAccessOutsideSpaceHasNoEffect : Obligations.HostAccessOutsideSpaceHasNoEffect := by
  intro s a
  refine ⟨fun ha => ⟨?_, ?_⟩, fun ha => ?_, fun hq p b => ⟨fun ha => ⟨?_, ?_⟩, fun ha => ?_⟩⟩
  · exact State.hostReadElement_eq_none.2 (.inr ha)
  · exact State.hostReadElement_eq_none.2 (.inr ha)
  · exact State.hostReadElement_eq_none.2 (.inr ha)
  · exact hostWrite_outside hq ha
  · exact hostWrite_outside hq ha
  · exact hostWrite_outside hq ha

/-- Settles O56: the move is the append. -/
theorem hostAppendsAtTailOfQueue : Obligations.HostAppendsAtTailOfQueue := fun _ _ => rfl

/-! ### Reset -/

/-- After the host's reset every memory is made of writes inside its space. -/
theorem State.memOk_takeReset (s : State) (c : Contents) : (s.takeReset c).MemOk :=
  ⟨Memory.ofWrites_ok .., Memory.ofWrites_ok .., Memory.ofWrites_ok .., Memory.ofWrites_ok .., Memory.ofWrites_ok ..⟩

/-- Settles O47: `takeReset` is a launch with the parameters and the count of free values kept. -/
theorem hostResetRestoresResetState : Obligations.HostResetRestoresResetState := fun s c =>
  ⟨s.takeReset c, _, rfl, rfl, rfl, rfl, s.memOk_takeReset c⟩

/-- Settles O59: `State.reset` is the launch with the defaults of 00_scope.md R7. -/
theorem ownResetStateIsDefaultInstance : Obligations.OwnResetStateIsDefaultInstance := ⟨Contents.blank, rfl⟩

/-! ### Stops -/

/-- Settles O24: `emit_stops` and `pushByte_stops`. -/
theorem packerStopsOutsideItsPreconditions : Obligations.PackerStopsOutsideItsPreconditions := by
  intro c wd b s
  refine ⟨emit_stops, fun h => ?_⟩
  rw [pushByte_stops b (by omega), h]

/-- A legal frame has a first pixel. -/
theorem State.FrameLegal.area_pos {s : State} (h : s.FrameLegal) : 1 ≤ s.frameArea := Nat.mul_pos h.1 h.2.1

/-- Settles O58: the scan stops at its first pixel. -/
theorem pindexStopsBeyondPalette : Obligations.PindexStopsBeyondPalette := by
  intro s hframe hp
  obtain ⟨n, hn⟩ : ∃ n, s.frameArea = n + 1 := ⟨s.frameArea - 1, by have := hframe.area_pos; omega⟩
  have hstop : pindexPixel 0 s = .stopped (.outsideSpace .pal 256) := if_pos hp
  rw [exec_pindex_legal hframe, hn, forFrom_succ, hstop, Done.stopped_bind, finish_stopped]

end Sys2Proof.Machine
end

section
/-! What each command leaves unchanged, command by command (10_state.md sections 2 and 4; 20_memory.md section 4, decision
D33). -/

namespace Sys2Proof.Machine

/-- One pixel's step, however it ends, leaves `STATUS.ACTIVE` alone. -/
theorem pixStep_active (v : Byte) (info : Word) (s : State) : (pixStep v info s).SatIfRuns (·.active = s.active) := by
  have hemit : ∀ (c wd : Nat) (u : State), (emit c wd u).SatIfRuns (·.active = u.active) := fun _ _ _ =>
    emit_satIfRuns.mono fun _ ht => by rw [ht.1]
  unfold pixStep
  split
  · rfl
  split
  · rfl
  split
  · rfl
  refine .bind_trans (R := fun s t => t.active = s.active) (fun h h' => h'.trans h) (hemit _ _ s) fun u => ?_
  unfold afterMiss
  split
  · rfl
  · exact .bind_trans (R := fun s t => t.active = s.active) (fun h h' => h'.trans h) (hemit _ _ u) fun _ => rfl

/-- What each command's body may change. -/
def CommandFrame : Instr → State → State → Prop
  | .nop, s, t => t = s
  | .set _ _, s, t => t = { s with regs := t.regs }
  | .pbuild, s, t => t = { s with ovf := t.ovf, palSize := t.palSize, pal := t.pal }
  | .pmask, s, t => t = { s with regs := { s.regs with maskStep := t.regs.maskStep }, tc := t.tc }
  | .pindex, s, t => t = { s with idx := t.idx }
  | .quant, s, t => SameButPalette s t
  | .lzwbegin, s, t => SameButLzw s t
  | .lzwpix _, s, t => SameButLzw s t ∧ t.active = s.active
  | .lzwend, s, t => SameButLzw s t
  | .lzwenc, s, t => SameButLzw s t

theorem commandBody_commandFrame (i : Instr) (s : State) : (commandBody i s).SatIfRuns (CommandFrame i s) := by
  cases i with
  | nop => rfl
  | set ra imm =>
    show (setBody ra imm s).SatIfRuns _
    unfold setBody
    split <;> rfl
  | pbuild => exact pbuildBody_frame _ s
  | pmask => exact pmaskBody_frame _ s
  | pindex => exact pindexBody_frame _ s
  | quant => exact quantBody_samePalette _ s
  | lzwbegin =>
    exact .after_check (closedCheck_frame _ s) (.refl s) <| .after_check (depthCheck_frame _ s) (.refl s) <|
      (beginBody_lzwFrame s).mono fun _ => And.left
  | lzwpix v =>
    refine .after_check (openCheck_frame _ s) ⟨.refl s, rfl⟩ ?_
    have hframe := pixStep_lzwFrame v (encode (.lzwpix v)) s
    have hactive := pixStep_active v (encode (.lzwpix v)) s
    revert hframe hactive
    cases pixStep v (encode (.lzwpix v)) s with
    | ok t => exact fun hframe hactive => ⟨hframe.1, hactive⟩
    | raised e info t => exact fun hframe hactive => ⟨hframe.1, hactive⟩
    | stopped r => exact fun _ _ => trivial
  | lzwend =>
    exact .after_check (openCheck_frame _ s) (.refl s) <| .after_check (emptyCheck_frame _ s) (.refl s) <|
      (endBody_lzwFrame s).mono fun _ => And.left
  | lzwenc => exact (lzwencBody_lzwFrame _ s).mono fun _ => And.left

theorem exec_commandFrame {i : Instr} {s t : State} (h : exec i s = .next t) :
    ∃ u, CommandFrame i s u ∧ (t = { u with pc := u.pc + 1#32 } ∨ ∃ e info, t = u.takeFault e info) :=
  (commandBody_commandFrame i s).of_finish (exec_eq_finish i s ▸ h)

/-! ### Registers and flags -/

theorem CommandFrame.regs {i : Instr} {s t : State} (h : CommandFrame i s t) :
    t.regs = s.regs ∨ (∃ ra imm, i = .set ra imm)
      ∨ ((i = .pmask ∨ i = .quant) ∧ t.regs = { s.regs with maskStep := t.regs.maskStep }) := by
  cases i with
  | nop => exact .inl (by rw [h])
  | set ra imm => exact .inr (.inl ⟨ra, imm, rfl⟩)
  | pbuild => exact .inl (by rw [h])
  | pmask => exact .inr (.inr ⟨.inl rfl, congrArg State.regs h⟩)
  | pindex => exact .inl (by rw [h])
  | quant => exact .inr (.inr ⟨.inr rfl, congrArg State.regs h⟩)
  | lzwbegin => exact .inl (by rw [h])
  | lzwpix v => exact .inl (by rw [h.1])
  | lzwend => exact .inl (by rw [h])
  | lzwenc => exact .inl (by rw [h])

theorem CommandFrame.ovf {i : Instr} {s t : State} (h : CommandFrame i s t) :
    t.ovf = s.ovf ∨ i = .pbuild ∨ i = .quant := by
  cases i with
  | pbuild => exact .inr (.inl rfl)
  | quant => exact .inr (.inr rfl)
  | lzwpix v => exact .inl (by rw [h.1])
  | _ => exact .inl (by rw [h])

theorem CommandFrame.active {i : Instr} {s t : State} (h : CommandFrame i s t) :
    t.active = s.active ∨ i = .lzwbegin ∨ i = .lzwend ∨ i = .lzwenc := by
  cases i with
  | lzwbegin => exact .inr (.inl rfl)
  | lzwend => exact .inr (.inr (.inl rfl))
  | lzwenc => exact .inr (.inr (.inr rfl))
  | lzwpix v => exact .inl h.2
  | _ => exact .inl (by rw [h])

/-- No command body writes the fault record. -/
theorem UnitFrame.faultRecord {s t : State} (h : UnitFrame s t) :
    t.fault = s.fault ∧ t.err = s.err ∧ t.errInfo = s.errInfo := by
  cases h with
  | control h => rw [h]; exact ⟨rfl, rfl, rfl⟩
  | palette h => rw [h]; exact ⟨rfl, rfl, rfl⟩
  | lzw h => rw [h.1]; exact ⟨rfl, rfl, rfl⟩

/-- Settles O43: `CommandFrame.regs`; the end of a command writes no register, and of the host's moves only reset does. -/
theorem configRegistersWrittenOnlyByNamedCommands : Obligations.ConfigRegistersWrittenOnlyByNamedCommands := by
  intro s t
  refine ⟨fun i h => ?_, fun m h => ?_⟩
  · obtain ⟨u, hu, rfl | ⟨e, info, rfl⟩⟩ := exec_commandFrame h <;> exact hu.regs
  · obtain ⟨c, hm, -⟩ | ht := hostMove_frame h
    · exact .inr ⟨c, hm⟩
    · exact .inl (by rw [ht])

/-- Settles O44: `OVF` and `ACTIVE` by `CommandFrame`, the fault record by `finish` alone. -/
theorem flagsWrittenOnlyByNamedCommands : Obligations.FlagsWrittenOnlyByNamedCommands := by
  intro i s t h
  have hfault := fun hs => exec_keeps_fault (s := s) hs h
  obtain ⟨u, hu, hend⟩ := exec_commandFrame h
  refine ⟨?_, ?_, hfault, fun ht => ?_⟩
  · obtain rfl | ⟨e, info, rfl⟩ := hend <;> exact hu.ovf
  · obtain rfl | ⟨e, info, rfl⟩ := hend <;> exact hu.active
  · obtain ⟨u, hu, rfl | ⟨e, info, rfl⟩⟩ := exec_frame h
    · exact hu.faultRecord.2
    · cases ht

/-! ### Units -/

section
variable {s t u : State} (hend : t = { u with pc := u.pc + 1#32 } ∨ ∃ e info, t = u.takeFault e info)
include hend

/-- The end of a command adds `PC` and the fault record to what the palette quantizer may have changed. -/
theorem SameButPalette.of_end (h : SameButPalette s u) :
    SameButPalette { s with pc := t.pc, fault := t.fault, err := t.err, errInfo := t.errInfo } t := by
  unfold SameButPalette at *
  obtain rfl | ⟨e, info, rfl⟩ := hend
  · rw [h]
  · rw [h]
    rfl

/-- The same for the LZW unit. -/
theorem SameButLzw.of_end (h : SameButLzw s u) :
    SameButLzw { s with pc := t.pc, fault := t.fault, err := t.err, errInfo := t.errInfo } t := by
  unfold SameButLzw at *
  obtain rfl | ⟨e, info, rfl⟩ := hend
  · rw [h]
  · rw [h]
    rfl

theorem memories_of_end : t.tc = u.tc ∧ t.pal = u.pal ∧ t.idx = u.idx := by
  obtain rfl | ⟨e, info, rfl⟩ := hend <;> exact ⟨rfl, rfl, rfl⟩

end

theorem CommandFrame.samePalette {i : Instr} {s t : State} (h : CommandFrame i s t)
    (hi : i ∈ [Instr.pbuild, .pmask, .pindex, .quant]) : SameButPalette s t := by
  simp only [List.mem_cons, List.not_mem_nil, or_false] at hi
  unfold SameButPalette
  obtain rfl | rfl | rfl | rfl := hi
  · rw [h]
  · rw [h]
  · rw [h]
  · exact h

theorem CommandFrame.sameLzw {i : Instr} {s t : State} (h : CommandFrame i s t)
    (hi : i ∈ [Instr.lzwbegin, .lzwend, .lzwenc] ∨ ∃ v, i = .lzwpix v) : SameButLzw s t := by
  simp only [List.mem_cons, List.not_mem_nil, or_false] at hi
  obtain (rfl | rfl | rfl) | ⟨v, rfl⟩ := hi
  · exact h
  · exact h
  · exact h
  · exact h.1

/-- Settles O45: `CommandFrame` of the commands of either unit, carried over the end of the command. -/
theorem unitsLeaveEachOtherAlone : Obligations.UnitsLeaveEachOtherAlone := by
  intro i s t h
  obtain ⟨u, hu, hend⟩ := exec_commandFrame h
  obtain ⟨htc, hpal, hidx⟩ := memories_of_end hend
  refine ⟨fun hi => (hu.samePalette hi).of_end hend, fun hi => (hu.sameLzw hi).of_end hend, ?_, ?_, ?_⟩
  · rintro rfl
    rw [htc, hpal, hu]
    exact ⟨rfl, rfl⟩
  · rintro rfl
    rw [htc, hidx, hu]
    exact ⟨rfl, rfl⟩
  · rintro rfl
    rw [hpal, hidx, hu]
    exact ⟨rfl, rfl⟩

end Sys2Proof.Machine
end

section
/-! One pixel of the LZW compressor (42_lzw_compressor.md R154 to R156): the four ways `PixStep` ends well, and the faults
before it. -/

namespace Sys2Proof.Machine

/-! ### What is emitted -/

/-- From `s` to `t` the packer took in `bits` and has room for the next byte; see `emit_emitted`. Unlike `Takes` it asks
nothing of the partial byte `s` holds. -/
structure Emitted (s t : State) (bits : List Bool) : Prop where
  room : t.bufCnt.toNat ≤ 254
  takes : s.PackerOk → Takes s t bits
  bufOk : s.BufOk → t.BufOk

theorem Emitted.nothing {s : State} (h : s.bufCnt.toNat ≤ 254) : Emitted s s [] := ⟨h, .refl, id⟩

theorem Emitted.trans {s t u : State} {bits bits' : List Bool} (h : Emitted s t bits) (h' : Emitted t u bits') :
    Emitted s u (bits ++ bits') :=
  ⟨h'.room, fun hs => (h.takes hs).trans (h'.takes (h.takes hs).packerOk), fun hs => h'.bufOk (h.bufOk hs)⟩

theorem emit_emitted {c wd : Nat} {s : State} (h1 : 1 ≤ wd) (h2 : wd ≤ 12) (h3 : c < 2 ^ wd)
    (hroom : s.bufCnt.toNat ≤ 254) : ∃ t, emit c wd s = .ok t ∧ SameButPacker s t ∧ Emitted s t (lowBits wd c) := by
  obtain ⟨t, ht, hsame, hroom', -, -, -, -, hbuf⟩ := emit_spec h1 h2 h3 hroom
  exact ⟨t, ht, hsame, hroom', fun hs => emit_takes hs ht, hbuf⟩

/-! ### A miss -/

section
variable {v : Byte} {info : Word} {s : State} (hv : v.toNat < 2 ^ s.lzwD.toNat) (hcur : s.cur.toNat < 4096)
  (hmiss : s.readTrie s.cur.toNat v = none) (h1 : 1 ≤ s.codeWidth.toNat) (h2 : s.codeWidth.toNat ≤ 12)
  (hfits : s.cur.toNat < 2 ^ s.codeWidth.toNat) (hroom : s.bufCnt.toNat ≤ 254)
include hv hcur hmiss h1 h2 hfits hroom

/-- A miss with the table not full: `CUR` is emitted, then the new code attached. -/
theorem pixStep_insert (hnext : s.nextCode.toNat < 4096) :
    ∃ t, pixStep v info s = .ok t ∧ SameButPacker ((s.attach v).curBase v) t
      ∧ Emitted s t (lowBits s.codeWidth.toNat s.cur.toNat) := by
  obtain ⟨u, hu, hsame, hroom', htakes, hbuf⟩ := emit_emitted h1 h2 hfits hroom
  have hnext' : u.nextCode.toNat < 4096 := by rw [hsame]; exact hnext
  refine ⟨(u.attach v).curBase v, ?_, ?_, hroom', htakes, hbuf⟩
  · rw [pixStep_miss hv (State.curIsRoot_of_lt hcur) hmiss, hu, Done.ok_bind, afterMiss_insert hnext']
  · rw [hsame]
    rfl

/-- A miss with the table full: `CUR` and the clear code are emitted, then the trie is begun anew. -/
theorem pixStep_rebuild (hnext : 4096 ≤ s.nextCode.toNat) (hclear : 2 ^ s.lzwD.toNat < 2 ^ s.codeWidth.toNat) :
    ∃ t, pixStep v info s = .ok t ∧ SameButPacker (s.trieReset.curBase v) t
      ∧ Emitted s t (lowBits s.codeWidth.toNat s.cur.toNat ++ lowBits s.codeWidth.toNat (2 ^ s.lzwD.toNat)) := by
  obtain ⟨u, hu, hsame, hemit⟩ := emit_emitted h1 h2 hfits hroom
  obtain ⟨w, hw, hwsame, hwemit⟩ := emit_emitted h1 h2 hclear hemit.room
  obtain ⟨hroom', htakes, hbuf⟩ := hemit.trans hwemit
  have hregs : u.nextCode = s.nextCode ∧ u.lzwD = s.lzwD ∧ u.codeWidth = s.codeWidth := by
    rw [hsame]; exact ⟨rfl, rfl, rfl⟩
  obtain ⟨hnext', hlzwD, hwidth⟩ := hregs
  refine ⟨w.trieReset.curBase v, ?_, ?_, hroom', htakes, hbuf⟩
  · rw [pixStep_miss hv (State.curIsRoot_of_lt hcur) hmiss, hu, Done.ok_bind, afterMiss_rebuild (hnext'.symm ▸ hnext),
      hlzwD, hwidth, clearCode, hw, Done.ok_bind]
  · rw [hsame.trans hwsame]
    rfl

end

/-! ### Every case at once -/

/-- The codes of an open frame fit its code width (42_lzw_compressor.md R160 (a)). -/
structure State.CodesFit (s : State) : Prop where
  widthPos : 1 ≤ s.codeWidth.toNat
  widthLe : s.codeWidth.toNat ≤ 12
  stopFits : stopCode s.lzwD.toNat < 2 ^ s.codeWidth.toNat
  curFits : s.cur = rootCur ∨ s.cur.toNat < 2 ^ s.codeWidth.toNat
  room : s.bufCnt.toNat ≤ 254

theorem State.CodesFit.cur_lt {s : State} (h : s.CodesFit) (hroot : s.cur ≠ rootCur) :
    s.cur.toNat < 2 ^ s.codeWidth.toNat ∧ s.cur.toNat < 4096 := by
  have hfits := h.curFits.resolve_left hroot
  exact ⟨hfits, hfits.trans_le (Nat.pow_le_pow_right (by omega) h.widthLe)⟩

/-- The four ways a pixel in range takes `s` to `t`. -/
inductive PixOutcome (v : Byte) (s t : State) : Prop
  /-- The first pixel of the frame. -/
  | first (hroot : s.cur = rootCur) (ht : t = s.curBase v)
  /-- The match extends. -/
  | extend (c : Code) (hroot : s.cur ≠ rootCur) (hchild : s.readTrie s.cur.toNat v = some c) (ht : t = s.curCode c)
  /-- A miss, the table not full. -/
  | insert (hroot : s.cur ≠ rootCur) (hmiss : s.readTrie s.cur.toNat v = none) (hnext : s.nextCode.toNat < 4096)
      (hsame : SameButPacker ((s.attach v).curBase v) t) (hemit : Emitted s t (lowBits s.codeWidth.toNat s.cur.toNat))
  /-- A miss, the table full. -/
  | rebuild (hroot : s.cur ≠ rootCur) (hmiss : s.readTrie s.cur.toNat v = none) (hnext : 4096 ≤ s.nextCode.toNat)
      (hsame : SameButPacker (s.trieReset.curBase v) t)
      (hemit : Emitted s t (lowBits s.codeWidth.toNat s.cur.toNat ++ lowBits s.codeWidth.toNat (2 ^ s.lzwD.toNat)))

/-- A pixel in range of a frame whose codes fit ends well. -/
theorem pixStep_outcome {v : Byte} {s : State} (hv : v.toNat < 2 ^ s.lzwD.toNat) (h : s.CodesFit) (info : Word) :
    ∃ t, pixStep v info s = .ok t ∧ PixOutcome v s t := by
  by_cases hroot : s.cur = rootCur
  · exact ⟨_, pixStep_first hv (State.curIsRoot_of_eq hroot), .first hroot rfl⟩
  obtain ⟨hfits, hcur⟩ := h.cur_lt hroot
  cases hchild : s.readTrie s.cur.toNat v with
  | some c => exact ⟨_, pixStep_match hv (State.curIsRoot_of_lt hcur) hchild, .extend c hroot hchild rfl⟩
  | none =>
    rcases Nat.lt_or_ge s.nextCode.toNat 4096 with hnext | hnext
    · obtain ⟨t, ht, hsame, hemit⟩ := pixStep_insert hv hcur hchild h.widthPos h.widthLe hfits h.room hnext
      exact ⟨t, ht, .insert hroot hchild hnext hsame hemit⟩
    · obtain ⟨t, ht, hsame, hemit⟩ := pixStep_rebuild hv hcur hchild h.widthPos h.widthLe hfits h.room hnext
        ((Nat.lt_succ_self _).trans h.stopFits)
      exact ⟨t, ht, .rebuild hroot hchild hnext hsame hemit⟩

/-! ### The registers after a miss -/

section
variable {s : State}

theorem State.toNat_attach_codeWidth (v : Byte) (h : s.codeWidth.toNat ≤ 12) :
    (s.attach v).codeWidth.toNat
      = if s.nextCode.toNat = 2 ^ s.codeWidth.toNat then s.codeWidth.toNat + 1 else s.codeWidth.toNat := by
  rw [State.attach_codeWidth, BitVec.toNat_ofNat]
  split
  · omega
  · omega

theorem State.toNat_attach_nextCode (v : Byte) (h : s.nextCode.toNat < 4096) :
    (s.attach v).nextCode.toNat = s.nextCode.toNat + 1 := by
  rw [State.attach_nextCode, BitVec.toNat_ofNat]
  omega

theorem State.readTrie_attach (v : Byte) (c : Nat) (u : Byte) :
    (s.attach v).readTrie c u
      = if s.cur.toNat = c ∧ v = u then some (BitVec.ofNat 12 s.nextCode.toNat) else s.readTrie c u :=
  s.readTrie_writeTrie s.cur.toNat c v u (some (BitVec.ofNat 12 s.nextCode.toNat))

theorem State.toNat_trieReset_codeWidth (h : s.lzwD.toNat ≤ 8) : s.trieReset.codeWidth.toNat = s.lzwD.toNat + 1 := by
  rw [State.trieReset_codeWidth, BitVec.toNat_ofNat]
  omega

theorem State.toNat_trieReset_nextCode (h : s.lzwD.toNat ≤ 8) : s.trieReset.nextCode.toNat = firstCode s.lzwD.toNat := by
  have hpow : 2 ^ s.lzwD.toNat ≤ 2 ^ 8 := Nat.pow_le_pow_right (by omega) h
  rw [State.trieReset_nextCode, firstCode, BitVec.toNat_ofNat, Nat.mod_eq_of_lt (by omega)]

theorem State.curBase_toNat (v : Byte) : (s.curBase v).cur.toNat = v.toNat := by
  have := v.isLt
  simp only [State.curBase, BitVec.zeroExtend, BitVec.toNat_setWidth]
  omega

theorem State.curCode_toNat (c : Code) : (s.curCode c).cur.toNat = c.toNat := by
  have := c.isLt
  simp only [State.curCode, BitVec.zeroExtend, BitVec.toNat_setWidth]
  omega

end

/-! ### The obligations about `LZWPIX` -/

theorem exec_lzwpix_open {s : State} (hopen : s.active = true) (v : Byte) :
    exec (.lzwpix v) s = finish (pixStep v (encode (.lzwpix v)) s) := by
  rw [exec_eq_finish, commandBody, openCheck_of_open hopen, Done.ok_bind]

/-- Settles O27: the check of `LZWPIX`, then that of `PixStep`. -/
theorem lzwpixFaults : Obligations.LzwpixFaults := by
  intro v s
  refine ⟨fun hclosed => ?_, fun hopen hrange => ?_⟩
  · rw [exec_eq_finish, commandBody, openCheck_of_closed hclosed]
    rfl
  · rw [exec_lzwpix_open hopen, pixStep_range hrange]
    rfl

/-- Settles O28: `pixStep_first` and `pixStep_match`. -/
theorem lzwpixFirstPixelAndMatch : Obligations.LzwpixFirstPixelAndMatch := by
  intro v s hopen hv
  refine ⟨fun hroot => ?_, fun c hcur hchild => ?_⟩
  · rw [exec_lzwpix_open hopen, pixStep_first hv (State.curIsRoot_of_eq hroot)]
    rfl
  · rw [exec_lzwpix_open hopen, pixStep_match hv (State.curIsRoot_of_lt hcur) hchild]
    rfl

/-- Settles O29: `pixStep_insert`, with the registers of `attach` read as numbers. -/
theorem lzwpixMissInsertsCode : Obligations.LzwpixMissInsertsCode := by
  intro v s hopen hv hcur hmiss hnext h1 h2 hfits hs
  obtain ⟨t, ht, hsame, hemit⟩ := pixStep_insert (info := encode (.lzwpix v)) hv hcur hmiss h1 h2 hfits hs.2 hnext
  have hinc : BitVec.ofNat 13 (s.nextCode.toNat + 1) = s.nextCode + 1#13 := by
    rw [BitVec.ofNat_add, BitVec.ofNat_toNat, BitVec.setWidth_eq]
  have htrie : ∀ c u, t.readTrie c u = (s.attach v).readTrie c u := fun c u => by rw [hsame]; rfl
  refine ⟨{ t with pc := t.pc + 1#32 }, ?_, hemit.takes hs, ?_, ?_, ?_, fun c u hne => ?_⟩
  · rw [exec_lzwpix_open hopen, ht, finish_ok]
  · rw [hsame, ← hinc]
    rfl
  · rw [← State.toNat_attach_codeWidth v h2, hsame]
    rfl
  · show (t.readTrie s.cur.toNat v).map BitVec.toNat = _
    rw [htrie, State.readTrie_attach, if_pos ⟨rfl, rfl⟩, Option.map_some, BitVec.toNat_ofNat, Nat.mod_eq_of_lt hnext]
  · show t.readTrie c u = _
    rw [htrie, State.readTrie_attach, if_neg fun h => hne ⟨h.1.symm, h.2.symm⟩]

/-- Settles O30: `pixStep_rebuild`, with the registers of `trieReset` read as numbers. -/
theorem lzwpixMissOnFullTableRebuilds : Obligations.LzwpixMissOnFullTableRebuilds := by
  intro v s hopen hv hcur hmiss hnext h1 h2 hfits hd hdw hs
  obtain ⟨t, ht, hsame, hemit⟩ := pixStep_rebuild (info := encode (.lzwpix v)) hv hcur hmiss h1 h2 hfits hs.2 hnext.ge
    (Nat.pow_lt_pow_right (by omega) hdw)
  refine ⟨{ t with pc := t.pc + 1#32 }, ?_, hemit.takes hs, ?_, ?_, ?_, fun c u => ?_⟩
  · rw [exec_lzwpix_open hopen, ht, finish_ok]
  · rw [hsame]
    rfl
  · rw [← State.toNat_trieReset_codeWidth hd, hsame]
    rfl
  · rw [← firstCode, ← State.toNat_trieReset_nextCode hd, hsame]
    rfl
  · show t.readTrie c u = none
    rw [hsame]
    rfl

/-- Settles O32: each check raises in the state the checks before it let through unchanged. -/
theorem lzwencChecksInOrder : Obligations.LzwencChecksInOrder := by
  intro s
  refine ⟨fun hopen => ?_, fun hclosed hdepth => ?_, fun hclosed hdepth hframe => ?_,
    fun hclosed hdepth hframe hregion => ?_⟩
  · rw [exec_eq_finish, commandBody, lzwencBody, closedCheck_of_open hopen]
    rfl
  · rw [exec_eq_finish, commandBody, lzwencBody, closedCheck_of_closed hclosed, Done.ok_bind, depthCheck_illegal hdepth]
    rfl
  · exact (frameCheckFaults s hframe).2 hclosed hdepth
  · rw [exec_eq_finish, commandBody, lzwencBody, closedCheck_of_closed hclosed, Done.ok_bind, depthCheck_legal hdepth,
      Done.ok_bind, frameCheck_legal hframe, Done.ok_bind, regionCheck_illegal hregion]
    rfl

end Sys2Proof.Machine
end

section
/-! `LZWENC`'s scan of its region as one list of pixels (42_lzw_compressor.md R158). -/

namespace Sys2Proof.Machine

/-- `PixStep` on each pixel in turn, each with the word a fault would record; see `scanRegion_eq_pixSteps`. -/
def pixSteps : List (Byte × Word) → State → Done
  | [], s => .ok s
  | p :: ps, s => (pixStep p.1 p.2 s).bind (pixSteps ps)

theorem pixSteps_cons (p : Byte × Word) (ps : List (Byte × Word)) (s : State) :
    pixSteps (p :: ps) s = (pixStep p.1 p.2 s).bind (pixSteps ps) := rfl

theorem pixSteps_append (ps qs : List (Byte × Word)) (s : State) :
    pixSteps (ps ++ qs) s = (pixSteps ps s).bind (pixSteps qs) := by
  induction ps generalizing s with
  | nil => rfl
  | cons p ps ih =>
    rw [List.cons_append, pixSteps_cons, pixSteps_cons, Done.bind_assoc]
    exact congrArg _ (funext ih)

theorem pixSteps_lzwFrame (ps : List (Byte × Word)) (s : State) : (pixSteps ps s).SatIfRuns (LzwFrame s) := by
  induction ps generalizing s with
  | nil => exact .refl s
  | cons p ps ih => exact .bind_trans .trans (pixStep_lzwFrame p.1 p.2 s) ih

theorem pixSteps_active (ps : List (Byte × Word)) (s : State) : (pixSteps ps s).SatIfRuns (·.active = s.active) := by
  induction ps generalizing s with
  | nil => rfl
  | cons p ps ih =>
    exact .bind_trans (R := fun s t => t.active = s.active) (fun h h' => h'.trans h) (pixStep_active p.1 p.2 s) ih

/-- Two continuations may differ where a part cannot end. -/
theorem Done.bind_congr {P : State → Prop} {x : Done} {f g : State → Done} (hx : x.SatIfRuns P)
    (hfg : ∀ s, P s → f s = g s) : x.bind f = x.bind g := by
  cases x with
  | ok s => exact hfg s hx
  | raised e info s => rfl
  | stopped r => rfl

/-- What `LZWENC` reads at an address: the pixel, and the address for `ERRINFO`. -/
def State.scanItem (s : State) (a : Nat) : Byte × Word := (s.readIdx a, BitVec.ofNat 32 a)

/-- The pixels do not change under the scan. -/
theorem State.scanItem_of_same {s t : State} (h : SameButLzw s t) : t.scanItem = s.scanItem := by rw [h]; rfl

/-- What the region of `LZWENC` holds, in order. -/
def State.scanItems (s : State) : List (Byte × Word) := s.regionAddrs.map s.scanItem

theorem scanRow_eq_pixSteps (n a : Nat) (s : State) : scanRow n a s = pixSteps ((List.range' a n).map s.scanItem) s := by
  unfold scanRow
  induction n generalizing a s with
  | zero => rfl
  | succ n ih =>
    rw [forFrom_succ, List.range'_succ, List.map_cons, pixSteps_cons]
    refine Done.bind_congr (pixStep_lzwFrame _ _ s) fun u hu => ?_
    rw [ih (a + 1) u, State.scanItem_of_same hu.1]

/-- The addresses of row `i` of the region. -/
def State.rowAddrs (s : State) (i : Nat) : List Nat :=
  List.range' (s.pixelAddr i s.regs.regX.toNat) s.regs.regW.toNat

theorem State.rowAddrs_of_same {s t : State} (h : SameButLzw s t) : t.rowAddrs = s.rowAddrs := by rw [h]; rfl

theorem State.regionAddrs_eq_rows (s : State) :
    s.regionAddrs = (List.range' s.regs.regY.toNat s.regs.regH.toNat).flatMap s.rowAddrs := by
  unfold State.regionAddrs State.rowAddrs State.pixelAddr
  simp only [List.range'_eq_map_range, List.flatMap_map, Nat.add_assoc]

/-- The scan is `PixStep` on each pixel of the region in row-major order. -/
theorem scanRegion_eq_pixSteps (s : State) : scanRegion s = pixSteps s.scanItems s := by
  have hrows : ∀ (n y : Nat) (s : State),
      forFrom n y (fun i s => scanRow s.regs.regW.toNat (s.pixelAddr i s.regs.regX.toNat) s) s
        = pixSteps (((List.range' y n).flatMap s.rowAddrs).map s.scanItem) s := by
    intro n
    induction n with
    | zero => exact fun _ _ => rfl
    | succ n ih =>
      intro y s
      rw [forFrom_succ, List.range'_succ, List.flatMap_cons, List.map_append, pixSteps_append, scanRow_eq_pixSteps]
      refine Done.bind_congr (pixSteps_lzwFrame _ s) fun u hu => ?_
      rw [ih (y + 1) u, State.rowAddrs_of_same hu.1, State.scanItem_of_same hu.1]
  rw [State.scanItems, State.regionAddrs_eq_rows]
  exact hrows _ _ s

/-- A legal region has a first pixel. -/
theorem State.scanItems_ne_nil {s : State} (h : s.RegionLegal) : s.scanItems ≠ [] := by
  have hlen : s.regionAddrs.length = s.regs.regH.toNat * s.regs.regW.toNat := by simp [State.regionAddrs]
  have hpos : 0 < s.regs.regH.toNat * s.regs.regW.toNat := Nat.mul_pos h.2.1 h.1
  intro hnil
  rw [State.scanItems, List.map_eq_nil_iff] at hnil
  rw [hnil, List.length_nil] at hlen
  omega

/-! ### A pixel, however it ends -/

/-- After a pixel `CUR` is a base code or a child. -/
theorem pixStep_cur_lt {v : Byte} {info : Word} {s t : State} (h : pixStep v info s = .ok t) : t.cur.toNat < 4096 := by
  have hbase : ∀ u : State, (u.curBase v).cur.toNat < 4096 := fun u => by
    rw [State.curBase_toNat]
    have := v.isLt
    omega
  unfold pixStep at h
  split at h
  · cases h
  split at h
  · cases h
    exact hbase s
  split at h
  · cases h
    rw [State.curCode_toNat]
    exact BitVec.isLt _
  · obtain ⟨u, -, hmiss⟩ := Done.bind_eq_ok.1 h
    unfold afterMiss at hmiss
    split at hmiss
    · cases hmiss
      exact hbase _
    · obtain ⟨w, -, hrebuild⟩ := Done.bind_eq_ok.1 hmiss
      cases hrebuild
      exact hbase _

/-- After at least one pixel `CUR` is not the root. -/
theorem pixSteps_cur_lt {ps : List (Byte × Word)} (hne : ps ≠ []) {s t : State} (h : pixSteps ps s = .ok t) :
    t.cur.toNat < 4096 := by
  induction ps generalizing s with
  | nil => exact absurd rfl hne
  | cons p ps ih =>
    obtain ⟨u, hu, hrest⟩ := Done.bind_eq_ok.1 h
    by_cases hnil : ps = []
    · subst hnil
      cases hrest
      exact pixStep_cur_lt hu
    · exact ih hnil hrest

/-- A pixel raises nothing but `E_PIXRANGE`, before it changes anything. -/
theorem pixStep_raised {v : Byte} {info i : Word} {e : ErrCode} {s t : State} (h : pixStep v info s = .raised e i t) :
    e = .pixRange ∧ i = info ∧ t = s := by
  unfold pixStep at h
  split at h
  · cases h
    exact ⟨rfl, rfl, rfl⟩
  split at h
  · cases h
  split at h
  · cases h
  · obtain hemit | ⟨u, -, hmiss⟩ := Done.bind_eq_raised.1 h
    · exact absurd hemit (emit_ne_raised e i t)
    · unfold afterMiss at hmiss
      split at hmiss
      · cases hmiss
      · obtain hclear | ⟨w, -, hrebuild⟩ := Done.bind_eq_raised.1 hmiss
        · exact absurd hclear (emit_ne_raised e i t)
        · cases hrebuild

theorem pixSteps_raised {ps : List (Byte × Word)} {i : Word} {e : ErrCode} {s t : State}
    (h : pixSteps ps s = .raised e i t) : e = .pixRange := by
  induction ps generalizing s with
  | nil => cases h
  | cons p ps ih =>
    obtain hstep | ⟨u, -, hrest⟩ := Done.bind_eq_raised.1 h
    · exact (pixStep_raised hstep).1
    · exact ih hrest

/-! ### The two ends of a frame -/

/-- The body of `LZWBEGIN` with a legal depth and room in `BUF`. -/
theorem beginBody_emitted {s : State} (h : s.DepthLegal) (hroom : s.bufCnt.toNat ≤ 254) :
    ∃ t, beginBody s = .ok t ∧ SameButPacker s.beginFrame t
      ∧ Emitted s t (if s.params.leadingClear then lowBits (s.regs.depth.toNat + 1) (2 ^ s.regs.depth.toNat) else []) := by
  unfold beginBody clearCode
  rw [State.toNat_beginFrame_lzwD h, State.toNat_beginFrame_codeWidth h]
  split
  · have := h.2
    obtain ⟨t, ht, hsame, hemit⟩ := emit_emitted (s := s.beginFrame) (wd := s.regs.depth.toNat + 1) (by omega) (by omega)
      (Nat.pow_lt_pow_succ (a := 2) (by omega)) hroom
    exact ⟨t, ht, hsame, hemit.room, hemit.takes, hemit.bufOk⟩
  · exact ⟨s.beginFrame, rfl, .refl _, hroom, .refl, id⟩

/-- `Close` raises nothing. -/
theorem packClose_ne_raised {s : State} (e : ErrCode) (i : Word) (t : State) : packClose s ≠ .raised e i t := by
  have hpush : ∀ b, pushByte b s ≠ .raised e i t := by
    intro b h
    unfold pushByte at h
    split at h
    · cases h
    · split at h <;> cases h
  intro h
  obtain hpartial | ⟨u, -, hblocks⟩ := Done.bind_eq_raised.1 h
  · unfold closePartial at hpartial
    split at hpartial
    · cases hpartial
    · obtain hb | ⟨u, -, hrest⟩ := Done.bind_eq_raised.1 hpartial
      · exact hpush _ hb
      · cases hrest
  · cases hblocks

/-- The end of a frame raises nothing once its checks have passed. -/
theorem endBody_ne_raised {s : State} (e : ErrCode) (i : Word) (t : State) : endBody s ≠ .raised e i t := by
  intro h
  obtain hcur | ⟨u, -, h⟩ := Done.bind_eq_raised.1 h
  · exact emit_ne_raised e i t hcur
  obtain hstop | ⟨v, -, h⟩ := Done.bind_eq_raised.1 h
  · exact emit_ne_raised e i t hstop
  obtain hclose | ⟨w, -, h⟩ := Done.bind_eq_raised.1 h
  · exact packClose_ne_raised e i t hclose
  · cases h

theorem beginBody_ne_raised {s : State} (e : ErrCode) (i : Word) (t : State) : beginBody s ≠ .raised e i t := by
  unfold beginBody
  split
  · exact emit_ne_raised e i t
  · intro h
    cases h

/-- With legal settings `LZWENC` is its three parts. -/
theorem lzwencBody_legal {w : Word} {s : State} (hclosed : s.active = false) (hdepth : s.DepthLegal)
    (hframe : s.FrameLegal) (hregion : s.RegionLegal) :
    lzwencBody w s = (beginBody s).bind fun u => (pixSteps s.scanItems u).bind endBody := by
  rw [lzwencBody, closedCheck_of_closed hclosed, Done.ok_bind, depthCheck_legal hdepth, Done.ok_bind,
    frameCheck_legal hframe, Done.ok_bind, regionCheck_legal hregion, Done.ok_bind]
  refine Done.bind_congr (beginBody_lzwFrame s) fun u hu => ?_
  have hitems : u.scanItems = s.scanItems := by rw [hu.1]; rfl
  rw [scanRegion_eq_pixSteps, hitems]

/-- With anything illegal `LZWENC` raises before it changes anything. -/
theorem lzwencBody_illegal (w : Word) {s : State}
    (h : ¬ (s.active = false ∧ s.DepthLegal ∧ s.FrameLegal ∧ s.RegionLegal)) :
    ∃ e, lzwencBody w s = .raised e w s := by
  cases hactive : s.active with
  | true => exact ⟨.state, by rw [lzwencBody, closedCheck_of_open hactive, Done.raised_bind]⟩
  | false =>
    rw [lzwencBody, closedCheck_of_closed hactive, Done.ok_bind]
    by_cases hdepth : s.DepthLegal
    case neg => exact ⟨.cfg, by rw [depthCheck_illegal hdepth, Done.raised_bind]⟩
    rw [depthCheck_legal hdepth, Done.ok_bind]
    by_cases hframe : s.FrameLegal
    case neg => exact ⟨.cfg, by rw [frameCheck_illegal hframe, Done.raised_bind]⟩
    rw [frameCheck_legal hframe, Done.ok_bind, regionCheck_illegal fun hregion => h ⟨hactive, hdepth, hframe, hregion⟩]
    exact ⟨.region, rfl⟩

end Sys2Proof.Machine
end

section
/-! The invariant of every run: after reset, over the host's moves, and over every command (10_state.md section 4,
42_lzw_compressor.md section 6, 43_code_packer.md section 1). -/

namespace Sys2Proof.Machine

/-! ### The invariant by units -/

/-- The part of the invariant the palette quantizer keeps. -/
structure State.PaletteInv (s : State) : Prop where
  tc : Memory.wf unwrittenPixel s.tc = true ∧ Memory.within s.params.frameCap s.tc = true
  pal : Memory.wf unwrittenPixel s.pal = true ∧ Memory.within palEntries s.pal = true
  idx : Memory.wf unwrittenByte s.idx = true ∧ Memory.within s.params.frameCap s.idx = true
  size : s.palSize.toNat ≤ 256

/-- The packer in order, its buffer in canonical form (43_code_packer.md R171). -/
def State.PackerInv (s : State) : Prop := s.PackerOk ∧ s.BufOk

/-- `TRIE` in canonical form and inside its space. -/
def State.TrieMemOk (s : State) : Prop := Memory.wf trieNone s.trie = true ∧ Memory.within trieEntries s.trie = true

/-- The part of the invariant the LZW unit and the packer keep. -/
structure State.LzwInv (s : State) : Prop where
  packer : s.PackerInv
  mem : s.TrieMemOk
  closed : s.ClosedOk
  lzw : s.LzwOk
  trie : s.TrieOk

theorem State.inv_iff {s : State} : s.Inv ↔ s.PaletteInv ∧ s.FaultOk ∧ s.LzwInv := by
  constructor
  · rintro ⟨⟨htc, hpal, hidx, htrie, hbuf⟩, hfault, hpacker, hclosed, hlzw, hentries, hsize⟩
    exact ⟨⟨htc, hpal, hidx, hsize⟩, hfault, ⟨hpacker, hbuf⟩, htrie, hclosed, hlzw, hentries⟩
  · rintro ⟨⟨htc, hpal, hidx, hsize⟩, hfault, ⟨hpacker, hbuf⟩, htrie, hclosed, hlzw, hentries⟩
    exact ⟨⟨htc, hpal, hidx, htrie, hbuf⟩, hfault, hpacker, hclosed, hlzw, hentries, hsize⟩

theorem State.PaletteInv.of_sameLzw {s t : State} (h : s.PaletteInv) (hst : SameButLzw s t) : t.PaletteInv := by
  rw [hst]
  exact ⟨h.tc, h.pal, h.idx, h.size⟩

theorem State.LzwInv.of_samePalette {s t : State} (h : s.LzwInv) (hst : SameButPalette s t) : t.LzwInv := by
  rw [hst]
  exact ⟨h.packer, h.mem, h.closed, h.lzw, h.trie⟩

/-- Registers, queue and `PC` are no part of the invariant. -/
theorem State.Inv.of_control {s : State} (h : s.Inv) (r : CfgRegs) (p : BitVec 32) (q : List Word) :
    { s with regs := r, pc := p, cmdq := q }.Inv := h

theorem ErrCode.code_range (e : ErrCode) : 1 ≤ e.code.toNat ∧ e.code.toNat ≤ 9 := by cases e <;> decide

theorem State.Inv.takeFault {s : State} (h : s.Inv) (e : ErrCode) (info : Word) : (s.takeFault e info).Inv := by
  obtain ⟨hpal, -, hlzw⟩ := State.inv_iff.1 h
  have hfault : (s.takeFault e info).FaultOk := ⟨fun hf => Bool.noConfusion hf, fun _ => e.code_range⟩
  exact State.inv_iff.2 ⟨⟨hpal.tc, hpal.pal, hpal.idx, hpal.size⟩, hfault, hlzw.packer, hlzw.mem, hlzw.closed, hlzw.lzw,
    hlzw.trie⟩

/-! ### Reset and the host -/

/-- A state after reset whose memories are in order. -/
theorem inv_launch {p : Params} {m : Contents} {n : Nat} (h : (State.launch p m n).MemOk) : (State.launch p m n).Inv := by
  refine ⟨h, ?_, ?_, fun _ => ⟨rfl, rfl, rfl, rfl⟩, ?_, ?_, ?_⟩
  · exact ⟨fun _ => ⟨rfl, rfl⟩, fun hf => Bool.noConfusion hf⟩
  · exact ⟨by simp [State.launch], by simp [State.launch]⟩
  · intro hopen; cases hopen
  · intro hopen; cases hopen
  · simp [State.launch]

theorem State.inv_takeReset (s : State) (c : Contents) : (s.takeReset c).Inv := inv_launch (s.memOk_takeReset c)

/-- Settles O48: both resets are launches, with empty memories and with memories made of writes. -/
theorem invariantHoldsAfterReset : Obligations.InvariantHoldsAfterReset := by
  refine ⟨inv_launch ?_, fun s t c h => ?_⟩
  · unfold State.MemOk
    decide
  · cases h
    exact s.inv_takeReset c

/-- Settles O50: an append is no part of the invariant, reset establishes it, and a write inside the space keeps the one
memory it touches in order. -/
theorem hostMovesKeepInvariant : Obligations.HostMovesKeepInvariant := by
  intro m s t hs h
  obtain ⟨hpal, hfault, hlzw⟩ := State.inv_iff.1 hs
  have hlzw' : ∀ {u : State}, SameButPalette s u → u.LzwInv := hlzw.of_samePalette
  cases m with
  | append w =>
    cases h
    exact hs.of_control s.regs s.pc _
  | reset c =>
    cases h
    exact s.inv_takeReset c
  | writeTc a p =>
    obtain ⟨⟨-, ha⟩, rfl⟩ := hostWrite_eq_next.1 h
    exact State.inv_iff.2 ⟨⟨⟨Memory.wf_write hpal.tc.1 a p, Memory.within_write hpal.tc.2 ha p⟩, hpal.pal, hpal.idx,
      hpal.size⟩, hfault, hlzw' rfl⟩
  | writePal a p =>
    obtain ⟨⟨-, ha⟩, rfl⟩ := hostWrite_eq_next.1 h
    exact State.inv_iff.2 ⟨⟨hpal.tc, ⟨Memory.wf_write hpal.pal.1 a p, Memory.within_write hpal.pal.2 ha p⟩, hpal.idx,
      hpal.size⟩, hfault, hlzw' rfl⟩
  | writeIdx a b =>
    obtain ⟨⟨-, ha⟩, rfl⟩ := hostWrite_eq_next.1 h
    exact State.inv_iff.2 ⟨⟨hpal.tc, hpal.pal, ⟨Memory.wf_write hpal.idx.1 a b, Memory.within_write hpal.idx.2 ha b⟩,
      hpal.size⟩, hfault, hlzw' rfl⟩

/-! ### The palette quantizer -/

/-- `PBUILD` keeps its part of the invariant, whatever the settings. -/
theorem pbuildBody_paletteInv (w : Word) {s : State} (hs : s.PaletteInv) : (pbuildBody w s).Sat State.PaletteInv := by
  by_cases hframe : s.FrameLegal
  · by_cases hmax : s.MaxsizeLegal
    · obtain ⟨t, ht, hsame, -, hsize, -, hwf, hwithin⟩ := pbuildPass_spec hmax
      have hbound := hmax.bounds.2
      have htc : t.tc = s.tc ∧ t.idx = s.idx ∧ t.params = s.params := by rw [hsame]; exact ⟨rfl, rfl, rfl⟩
      obtain ⟨htc, hidx, hparams⟩ := htc
      rw [pbuildBody_legal hframe hmax, ht]
      exact ⟨by rw [htc, hparams]; exact hs.tc, ⟨hwf hs.pal.1, hwithin hs.pal.2⟩, by rw [hidx, hparams]; exact hs.idx,
        by omega⟩
    · rw [pbuildBody, frameCheck_legal hframe, Done.ok_bind, maxsizeCheck_illegal hmax]
      exact hs
  · rw [pbuildBody, frameCheck_illegal hframe]
    exact hs

/-- `PMASK` keeps its part of the invariant. -/
theorem pmaskBody_paletteInv (w : Word) {s : State} (hs : s.PaletteInv) : (pmaskBody w s).Sat State.PaletteInv := by
  by_cases hframe : s.FrameLegal
  · rcases Nat.lt_or_ge s.regs.maskStep.toNat 8 with hstep | hlimit
    · rw [pmaskBody_legal hframe hstep]
      obtain ⟨t, ht, hsame, -, hwf, hwithin⟩ :=
        maskFrame_spec (s.setCfg .maskStep (BitVec.ofNat 16 (s.regs.maskStep.toNat + 1)))
      have hwf' := hwf hs.tc.1
      have hwithin' := hwithin hframe.2.2 hs.tc.2
      rw [ht, Done.sat_ok]
      rw [hsame]
      exact ⟨⟨hwf', hwithin'⟩, hs.pal, hs.idx, hs.size⟩
    · rw [pmaskBody_limit hframe hlimit]
      exact hs
  · rw [pmaskBody, frameCheck_illegal hframe]
    exact hs

/-- `PINDEX` keeps its part of the invariant, which rules out its stop. -/
theorem pindexBody_paletteInv (w : Word) {s : State} (hs : s.PaletteInv) : (pindexBody w s).Sat State.PaletteInv := by
  by_cases hframe : s.FrameLegal
  · rw [pindexBody, frameCheck_legal hframe, Done.ok_bind]
    refine (pindexScan_frame s.frameArea 0 s hs.size).mono fun t ⟨hsame, _, hwf, hwithin⟩ => ?_
    have hwf' := hwf hs.idx.1
    have hwithin' := hwithin (by rw [Nat.zero_add]; exact hframe.2.2) hs.idx.2
    rw [hsame]
    exact ⟨hs.tc, hs.pal, ⟨hwf', hwithin'⟩, hs.size⟩
  · rw [pindexBody, frameCheck_illegal hframe]
    exact hs

theorem quantLoop_paletteInv (w : Word) (n : Nat) {s : State} (hs : s.PaletteInv) :
    (quantLoop w n s).Sat State.PaletteInv := by
  induction n generalizing s with
  | zero =>
    unfold quantLoop
    split
    · exact pmaskBody_paletteInv w hs
    · exact hs
  | succ n ih =>
    unfold quantLoop
    split
    · exact (pmaskBody_paletteInv w hs).bind (fun _ h => h) fun _ hu =>
        (pbuildBody_paletteInv w hu).bind (fun _ h => h) fun _ => ih
    · exact hs

/-- `QUANT` keeps its part of the invariant, being made of the other three. -/
theorem quantBody_paletteInv (w : Word) {s : State} (hs : s.PaletteInv) : (quantBody w s).Sat State.PaletteInv := by
  by_cases hframe : s.FrameLegal
  · by_cases hmax : s.MaxsizeLegal
    · rw [quantBody, frameCheck_legal hframe, Done.ok_bind, maxsizeCheck_legal hmax, Done.ok_bind]
      have hstart : (s.setCfg .maskStep 0#16).PaletteInv := ⟨hs.tc, hs.pal, hs.idx, hs.size⟩
      exact (pbuildBody_paletteInv w hstart).bind (fun _ h => h) fun _ hu =>
        (quantLoop_paletteInv w 8 hu).bind (fun _ h => h) fun _ => pindexBody_paletteInv w
    · rw [quantBody, frameCheck_legal hframe, Done.ok_bind, maxsizeCheck_illegal hmax]
      exact hs
  · rw [quantBody, frameCheck_illegal hframe]
    exact hs

/-! ### Listing one more entry -/

/-- An address not listed is listed once by an insertion. -/
theorem Memory.insert_perm {α : Type} {m : Memory α} {a : Nat} (h : ∀ c ∈ m, c.1 ≠ a) (v : α) :
    (Memory.insert m a v).Perm ((a, v) :: m) := by
  induction m with
  | nil => exact .refl _
  | cons e m ih =>
    obtain ⟨k, x⟩ := e
    have hk : k ≠ a := h (k, x) List.mem_cons_self
    rw [Memory.insert]
    split
    · exact .refl _
    · rw [if_neg hk.symm]
      exact ((ih fun c hc => h c (List.mem_cons_of_mem _ hc)).cons (k, x)).trans (.swap ..)

/-- What a canonical memory does not read at an address it does not list. -/
theorem Memory.not_listed {α : Type} [DecidableEq α] {d : α} {m : Memory α} {a : Nat} (hwf : Memory.wf d m = true)
    (h : Memory.read d m a = d) : ∀ c ∈ m, c.1 ≠ a := by
  obtain ⟨hrising, hlisted⟩ := (Memory.wf_iff d m).1 hwf
  rintro c hc rfl
  exact hlisted c hc ((Memory.read_of_mem d hrising hc).symm.trans h)

/-! ### The LZW unit -/

theorem State.TrieMemOk.write {s : State} (h : s.TrieMemOk) {a : Nat} (ha : a < trieEntries) (e : Option Code) :
    Memory.wf trieNone (Memory.write trieNone s.trie a e) = true
      ∧ Memory.within trieEntries (Memory.write trieNone s.trie a e) = true :=
  ⟨Memory.wf_write h.1 a e, Memory.within_write h.2 ha e⟩

/-- The registers and the trie of an open frame; the packer, which they do not depend on, left out. -/
structure State.OpenOk (s : State) : Prop where
  opened : s.active = true
  mem : s.TrieMemOk
  lzw : s.LzwOk
  trie : s.TrieOk

theorem State.OpenOk.of_packer {s t : State} (h : s.OpenOk) (hst : SameButPacker s t) : t.OpenOk := by
  rw [hst]
  exact ⟨h.opened, h.mem, h.lzw, h.trie⟩

theorem State.OpenOk.lzwInv {s : State} (h : s.OpenOk) (hpacker : s.PackerInv) : s.LzwInv :=
  ⟨hpacker, h.mem, fun hclosed => Bool.noConfusion (h.opened.symm.trans hclosed), h.lzw, h.trie⟩

theorem State.LzwInv.openOk {s : State} (h : s.LzwInv) (hopen : s.active = true) : s.OpenOk :=
  ⟨hopen, h.mem, h.lzw, h.trie⟩

theorem State.OpenOk.codesFit {s : State} (h : s.OpenOk) (hroom : s.bufCnt.toNat ≤ 254) : s.CodesFit := by
  obtain ⟨⟨hd1, -⟩, ⟨hw1, hw2⟩, ⟨-, hnext⟩, hfirst, hcur⟩ := h.lzw h.opened
  unfold firstCode at hfirst
  refine ⟨by omega, hw2, by unfold stopCode; omega, hcur.imp_right fun hnode => ?_, hroom⟩
  rcases hnode with hbase | ⟨-, hassigned⟩ <;> omega

/-- A frame just begun: no code is assigned. -/
theorem State.openOk_beginFrame {s : State} (h : s.DepthLegal) : s.beginFrame.OpenOk := by
  obtain ⟨h1, h8⟩ := h
  have hpow : 2 ^ 1 ≤ 2 ^ s.regs.depth.toNat := Nat.pow_le_pow_right (by omega) h1
  refine ⟨rfl, ⟨rfl, rfl⟩, fun _ => ?_, fun _ => ⟨fun c hc => absurd hc List.not_mem_nil, fun n hn hfirst => ?_⟩⟩
  · rw [State.toNat_beginFrame_lzwD ⟨h1, h8⟩, State.toNat_beginFrame_codeWidth ⟨h1, h8⟩,
      State.toNat_beginFrame_nextCode ⟨h1, h8⟩, firstCode]
    refine ⟨⟨h1, h8⟩, ⟨le_rfl, by omega⟩, ⟨by rw [Nat.add_sub_cancel]; omega, ?_⟩, le_rfl, .inl rfl⟩
    rw [Nat.pow_succ]
    omega
  · rw [State.toNat_beginFrame_nextCode ⟨h1, h8⟩] at hn
    rw [State.toNat_beginFrame_lzwD ⟨h1, h8⟩, firstCode] at hfirst
    omega

/-- The codes assigned so far stay nodes when one more is assigned. -/
theorem State.IsNode.attach {s : State} {c : Nat} (hc : s.IsNode c) (v : Byte) (hnext : s.nextCode.toNat < 4096) :
    (s.attach v).IsNode c := by
  refine hc.imp_right fun ⟨hfirst, hlt⟩ => ⟨hfirst, ?_⟩
  rw [State.toNat_attach_nextCode v hnext]
  omega

section
variable {s : State} (h : s.OpenOk) {v : Byte} (hv : v.toNat < 2 ^ s.lzwD.toNat)
include h

include hv in
theorem State.OpenOk.curBase : (s.curBase v).OpenOk := by
  obtain ⟨hd, hw, hn, hfirst, -⟩ := h.lzw h.opened
  exact ⟨h.opened, h.mem, fun _ => ⟨hd, hw, hn, hfirst, .inr (.inl (by rw [State.curBase_toNat]; exact hv))⟩, h.trie⟩

/-- A child in the trie is an assigned code. -/
theorem State.OpenOk.curCode {c : Code} (hchild : s.readTrie s.cur.toNat v = some c) : (s.curCode c).OpenOk := by
  obtain ⟨hd, hw, hn, hfirst, -⟩ := h.lzw h.opened
  have hlisted := Memory.mem_of_read_ne (d := trieNone) (m := s.trie) (a := trieAddr s.cur.toNat v)
    (by rw [show Memory.read trieNone s.trie _ = some c from hchild]; exact Option.some_ne_none c)
  obtain ⟨hassigned, -⟩ := (h.trie h.opened).1 _ hlisted c hchild
  exact ⟨h.opened, h.mem,
    fun _ => ⟨hd, hw, hn, hfirst, .inr (.inr (by rw [State.curCode_toNat]; exact hassigned))⟩, h.trie⟩

include hv in
/-- A trie begun anew. -/
theorem State.OpenOk.rebuild : (s.trieReset.curBase v).OpenOk := by
  obtain ⟨⟨h1, h8⟩, -⟩ := h.lzw h.opened
  have hpow : 2 ^ 1 ≤ 2 ^ s.lzwD.toNat := Nat.pow_le_pow_right (by omega) h1
  have hwidth : (s.trieReset.curBase v).codeWidth.toNat = s.lzwD.toNat + 1 := State.toNat_trieReset_codeWidth h8
  have hnext : (s.trieReset.curBase v).nextCode.toNat = firstCode s.lzwD.toNat := State.toNat_trieReset_nextCode h8
  have hlzwD : (s.trieReset.curBase v).lzwD = s.lzwD := rfl
  refine ⟨h.opened, ⟨rfl, rfl⟩, fun _ => ?_, fun _ => ⟨fun c hc => absurd hc List.not_mem_nil, fun n hn hfirst => ?_⟩⟩
  · rw [hwidth, hnext, hlzwD]
    refine ⟨⟨h1, h8⟩, ⟨le_rfl, by omega⟩, ⟨?_, ?_⟩, le_rfl, .inr (.inl ?_)⟩
    · rw [Nat.add_sub_cancel, firstCode]
      omega
    · rw [firstCode, Nat.pow_succ]
      omega
    · rw [State.curBase_toNat]
      exact hv
  · rw [hnext] at hn
    rw [hlzwD] at hfirst
    omega

section
variable (hroot : s.cur ≠ rootCur) (hmiss : s.readTrie s.cur.toNat v = none) (hnext : s.nextCode.toNat < 4096)
include hnext

/-- The width grows exactly when the code attached would not fit it. -/
theorem State.OpenOk.attach_lzwOk (hv : v.toNat < 2 ^ s.lzwD.toNat) : ((s.attach v).curBase v).LzwOk := by
  obtain ⟨hd, ⟨hw1, hw2⟩, ⟨hn1, hn2⟩, hfirst, -⟩ := h.lzw h.opened
  intro _
  have hwidth : ((s.attach v).curBase v).codeWidth.toNat = _ := State.toNat_attach_codeWidth v hw2
  have hnext' : ((s.attach v).curBase v).nextCode.toNat = _ := State.toNat_attach_nextCode v hnext
  have hlzwD : ((s.attach v).curBase v).lzwD = s.lzwD := rfl
  have hcur : ((s.attach v).curBase v).IsNode ((s.attach v).curBase v).cur.toNat :=
    .inl (by rw [State.curBase_toNat]; exact hv)
  rcases Nat.lt_or_eq_of_le hn2 with hlt | hfull
  · rw [if_neg hlt.ne] at hwidth
    rw [hwidth, hnext', hlzwD]
    exact ⟨hd, ⟨hw1, hw2⟩, ⟨by omega, hlt⟩, by omega, .inr hcur⟩
  · have hlt : 2 ^ s.codeWidth.toNat < 2 ^ 12 := by omega
    have hroom : s.codeWidth.toNat < 12 := (Nat.pow_lt_pow_iff_right (by omega)).1 hlt
    have hpow : 2 ^ (s.codeWidth.toNat + 1) = 2 ^ s.codeWidth.toNat * 2 := Nat.pow_succ ..
    have hpos := Nat.two_pow_pos s.codeWidth.toNat
    rw [if_pos hfull] at hwidth
    rw [hwidth, hnext', hlzwD]
    refine ⟨hd, ⟨by omega, by omega⟩, ⟨?_, by omega⟩, by omega, .inr hcur⟩
    rw [Nat.add_sub_cancel]
    omega

include hroot hmiss

/-- The new code stands in one entry, in the row of the current node. -/
theorem State.OpenOk.attach_trieOk (hv : v.toNat < 2 ^ s.lzwD.toNat) : ((s.attach v).curBase v).TrieOk := by
  obtain ⟨hentries, hcount⟩ := h.trie h.opened
  obtain ⟨-, -, -, hfirst, hcur⟩ := h.lzw h.opened
  have hnode : s.IsNode s.cur.toNat := hcur.resolve_left hroot
  have hnext' : ((s.attach v).curBase v).nextCode.toNat = s.nextCode.toNat + 1 := State.toNat_attach_nextCode v hnext
  have hnew : (BitVec.ofNat 12 s.nextCode.toNat).toNat = s.nextCode.toNat := by
    rw [BitVec.toNat_ofNat, Nat.mod_eq_of_lt hnext]
  have hperm : ((s.attach v).curBase v).trie.Perm
      ((trieAddr s.cur.toNat v, some (BitVec.ofNat 12 s.nextCode.toNat)) :: s.trie) :=
    Memory.insert_perm (Memory.not_listed h.mem.1 hmiss) _
  refine fun _ => ⟨fun c hc k hk => ?_, fun n hn hn' => ?_⟩
  · rw [hnext']
    rcases List.mem_cons.1 (hperm.mem_iff.1 hc) with rfl | hold
    · obtain rfl := Option.some.inj hk
      have hrow : trieAddr s.cur.toNat v / 256 = s.cur.toNat ∧ trieAddr s.cur.toNat v % 256 = v.toNat := by
        have := v.isLt
        unfold trieAddr
        omega
      rw [hrow.1, hrow.2, hnew]
      exact ⟨⟨hfirst, by omega⟩, hnode.attach v hnext, hv⟩
    · obtain ⟨⟨hk1, hk2⟩, hrow, hcol⟩ := hentries c hold k hk
      exact ⟨⟨hk1, by omega⟩, hrow.attach v hnext, hcol⟩
  · rw [hnext'] at hn
    rw [hperm.countP_eq, List.countP_cons]
    rcases Nat.lt_or_eq_of_le (Nat.le_of_lt_succ hn) with hlt | rfl
    · have hne : some (BitVec.ofNat 12 s.nextCode.toNat) ≠ some (BitVec.ofNat 12 n) := fun heq => by
        have := congrArg BitVec.toNat (Option.some.inj heq)
        rw [hnew, BitVec.toNat_ofNat] at this
        omega
      rw [hcount n hlt hn', if_neg (by simpa using hne)]
    · have hzero : s.trie.countP (fun c => decide (c.2 = some (BitVec.ofNat 12 s.nextCode.toNat))) = 0 := by
        refine List.countP_eq_zero.2 fun c hc heq => ?_
        have := (hentries c hc _ (of_decide_eq_true heq)).1.2
        omega
      rw [hzero, if_pos (by simp)]

theorem State.OpenOk.insert (hv : v.toNat < 2 ^ s.lzwD.toNat) : ((s.attach v).curBase v).OpenOk := by
  have hcur : s.cur.toNat < 4096 := by
    obtain ⟨⟨-, hd⟩, -, -, -, hcur⟩ := h.lzw h.opened
    have hpow : 2 ^ s.lzwD.toNat ≤ 2 ^ 8 := Nat.pow_le_pow_right (by omega) hd
    rcases hcur.resolve_left hroot with hbase | ⟨-, hassigned⟩ <;> omega
  exact ⟨h.opened, h.mem.write (trieAddr_lt v hcur) (some (BitVec.ofNat 12 s.nextCode.toNat)),
    h.attach_lzwOk hnext hv, h.attach_trieOk hroot hmiss hnext hv⟩

end

end

/-- The packer after an emission. -/
theorem Emitted.packerInv {s t : State} {bits : List Bool} (h : Emitted s t bits) (hs : s.PackerInv) : t.PackerInv :=
  ⟨(h.takes hs.1).packerOk, h.bufOk hs.2⟩

theorem PixOutcome.openOk {v : Byte} {s t : State} (hv : v.toNat < 2 ^ s.lzwD.toNat) (h : s.OpenOk)
    (hpix : PixOutcome v s t) : t.OpenOk := by
  cases hpix with
  | first hroot ht => exact ht ▸ h.curBase hv
  | extend c hroot hchild ht => exact ht ▸ h.curCode hchild
  | insert hroot hmiss hnext hsame hemit => exact (h.insert hroot hmiss hnext hv).of_packer hsame
  | rebuild hroot hmiss hnext hsame hemit => exact (h.rebuild hv).of_packer hsame

theorem PixOutcome.packerInv {v : Byte} {s t : State} (hs : s.PackerInv) (hpix : PixOutcome v s t) : t.PackerInv := by
  cases hpix with
  | first hroot ht => exact ht ▸ hs
  | extend c hroot hchild ht => exact ht ▸ hs
  | insert hroot hmiss hnext hsame hemit => exact hemit.packerInv hs
  | rebuild hroot hmiss hnext hsame hemit => exact hemit.packerInv hs

/-- The invariant of an open frame. -/
def State.OpenInv (s : State) : Prop := s.OpenOk ∧ s.PackerInv

theorem pixStep_openInv (v : Byte) (info : Word) {s : State} (h : s.OpenInv) : (pixStep v info s).Sat State.OpenInv := by
  obtain ⟨hopen, hpacker⟩ := h
  rcases Nat.lt_or_ge v.toNat (2 ^ s.lzwD.toNat) with hv | hv
  · obtain ⟨t, ht, hpix⟩ := pixStep_outcome hv (hopen.codesFit hpacker.1.2) info
    rw [ht]
    exact ⟨hpix.openOk hv hopen, hpix.packerInv hpacker⟩
  · rw [pixStep_range hv]
    exact ⟨hopen, hpacker⟩

theorem pixSteps_openInv (ps : List (Byte × Word)) {s : State} (h : s.OpenInv) : (pixSteps ps s).Sat State.OpenInv := by
  induction ps generalizing s with
  | nil => exact h
  | cons p ps ih => exact (pixStep_openInv p.1 p.2 h).bind (fun _ h => h) fun _ => ih

theorem beginBody_openInv {s : State} (hdepth : s.DepthLegal) (hs : s.PackerInv) :
    ∃ t, beginBody s = .ok t ∧ t.OpenInv := by
  obtain ⟨t, ht, hsame, hemit⟩ := beginBody_emitted hdepth hs.1.2
  exact ⟨t, ht, (State.openOk_beginFrame hdepth).of_packer hsame, hemit.packerInv hs⟩

/-- `Close` keeps the packer in order. -/
theorem packClose_packerInv {s t : State} (hs : s.PackerInv) (h : packClose s = .ok t) : t.PackerInv := by
  obtain ⟨_, ht, -, hn, hp, hc, -, hbuf⟩ := packClose_spec hs.1.2 hs.1.partialByte_eq_zero
  obtain rfl := Done.ok.inj (ht.symm.trans h)
  exact ⟨by simp [State.PackerOk, hn, hp, hc], hbuf hs.2⟩

theorem emit_packerInv {c wd : Nat} {s t : State} (hs : s.PackerInv) (h : emit c wd s = .ok t) : t.PackerInv := by
  obtain ⟨h1, h2, h3⟩ := emit_eq_ok h
  obtain ⟨_, ht, -, hemit⟩ := emit_emitted h1 h2 h3 hs.1.2
  obtain rfl := Done.ok.inj (ht.symm.trans h)
  exact hemit.packerInv hs

/-- With a pixel taken the end of a frame completes and leaves a closed frame in order. -/
theorem endBody_lzwInv {s : State} (h : s.OpenInv) (hroot : s.cur ≠ rootCur) : ∃ t, endBody s = .ok t ∧ t.LzwInv := by
  obtain ⟨hopen, hpacker⟩ := h
  have hfit := hopen.codesFit hpacker.1.2
  obtain ⟨t, tail, ht, hsame, -⟩ :=
    endBody_ok (hfit.cur_lt hroot).1 hfit.widthPos hfit.widthLe hfit.stopFits hpacker.1
  have hclosed : t.active = false ∧ t.nbits = 0#3 ∧ t.partialByte = 0#8 ∧ t.bufCnt = 0#8 ∧ t.cur = rootCur := by
    rw [hsame]; exact ⟨rfl, rfl, rfl, rfl, rfl⟩
  obtain ⟨hactive, hempty⟩ := hclosed
  obtain ⟨u, hu, hrest⟩ := Done.bind_eq_ok.1 ht
  obtain ⟨v, hv, hrest⟩ := Done.bind_eq_ok.1 hrest
  obtain ⟨w, hw, hend⟩ := Done.bind_eq_ok.1 hrest
  have hwinv := packClose_packerInv (emit_packerInv (emit_packerInv hpacker hu) hv) hw
  obtain rfl := Done.ok.inj hend
  exact ⟨_, ht, hwinv, Memory.ofWrites_ok .., fun _ => hempty, fun hf => Bool.noConfusion (hactive.symm.trans hf),
    fun hf => Bool.noConfusion (hactive.symm.trans hf)⟩

/-! ### The LZW commands -/

theorem State.OpenInv.lzwInv {s : State} (h : s.OpenInv) : s.LzwInv := h.1.lzwInv h.2

theorem State.LzwInv.openInv {s : State} (h : s.LzwInv) (hopen : s.active = true) : s.OpenInv :=
  ⟨h.openOk hopen, h.packer⟩

section
variable {s : State} (h : s.LzwInv)
include h

theorem lzwbegin_lzwInv : (commandBody .lzwbegin s).Sat State.LzwInv := by
  rw [commandBody]
  cases hactive : s.active with
  | true => rw [closedCheck_of_open hactive]; exact h
  | false =>
    rw [closedCheck_of_closed hactive, Done.ok_bind]
    by_cases hdepth : s.DepthLegal
    · obtain ⟨t, ht, hopen⟩ := beginBody_openInv hdepth h.packer
      rw [depthCheck_legal hdepth, Done.ok_bind, ht]
      exact hopen.lzwInv
    · rw [depthCheck_illegal hdepth]
      exact h

theorem lzwpix_lzwInv (v : Byte) : (commandBody (.lzwpix v) s).Sat State.LzwInv := by
  rw [commandBody]
  cases hactive : s.active with
  | true =>
    rw [openCheck_of_open hactive, Done.ok_bind]
    exact (pixStep_openInv v _ (h.openInv hactive)).mono fun _ => State.OpenInv.lzwInv
  | false => rw [openCheck_of_closed hactive]; exact h

theorem lzwend_lzwInv : (commandBody .lzwend s).Sat State.LzwInv := by
  rw [commandBody]
  cases hactive : s.active with
  | true =>
    rw [openCheck_of_open hactive, Done.ok_bind]
    by_cases hroot : s.cur = rootCur
    · rw [emptyCheck_of_root hroot]
      exact h
    · have hinv := h.openInv hactive
      obtain ⟨t, ht, hclosed⟩ := endBody_lzwInv hinv hroot
      rw [emptyCheck_of_code ((hinv.1.codesFit hinv.2.1.2).cur_lt hroot).2, Done.ok_bind, ht]
      exact hclosed
  | false => rw [openCheck_of_closed hactive]; exact h

/-- `LZWENC` is its three parts; the region has a pixel, so the end of the frame has one too. -/
theorem lzwenc_lzwInv : (commandBody .lzwenc s).Sat State.LzwInv := by
  rw [commandBody]
  by_cases hchecks : s.active = false ∧ s.DepthLegal ∧ s.FrameLegal ∧ s.RegionLegal
  · obtain ⟨hclosed, hdepth, hframe, hregion⟩ := hchecks
    obtain ⟨u, hu, hopen⟩ := beginBody_openInv hdepth h.packer
    rw [lzwencBody_legal hclosed hdepth hframe hregion, hu, Done.ok_bind]
    have hscan := pixSteps_openInv s.scanItems hopen
    cases hsteps : pixSteps s.scanItems u with
    | ok t =>
      rw [hsteps] at hscan
      have hcur := pixSteps_cur_lt (State.scanItems_ne_nil hregion) hsteps
      obtain ⟨v, hv, hend⟩ := endBody_lzwInv hscan (by rintro heq; rw [heq] at hcur; exact absurd hcur (by decide))
      rw [Done.ok_bind, hv]
      exact hend
    | raised e i t =>
      rw [hsteps] at hscan
      exact State.OpenInv.lzwInv hscan
    | stopped r => rw [hsteps] at hscan; exact hscan.elim
  · obtain ⟨e, he⟩ := lzwencBody_illegal (encode .lzwenc) hchecks
    rw [he]
    exact h

end

/-! ### Every command -/

theorem Done.Sat.and {P Q : State → Prop} {x : Done} (hx : x.Sat P) (hy : x.SatIfRuns Q) : x.Sat fun s => P s ∧ Q s := by
  cases x with
  | ok s => exact ⟨hx, hy⟩
  | raised e i s => exact ⟨hx, hy⟩
  | stopped r => exact hx

/-- A body that keeps the invariant ends in a next state, which satisfies it. -/
theorem Done.Sat.finish_inv {x : Done} (hx : x.Sat State.Inv) : ∃ t, finish x = .next t ∧ t.Inv := by
  cases x with
  | ok s => exact ⟨_, rfl, State.Inv.of_control hx s.regs _ s.cmdq⟩
  | raised e info s => exact ⟨_, rfl, State.Inv.takeFault hx e info⟩
  | stopped r => exact hx.elim

theorem State.FaultOk.of_unitFrame {s t : State} (h : s.FaultOk) (hst : UnitFrame s t) : t.FaultOk := by
  obtain ⟨hfault, herr, hinfo⟩ := hst.faultRecord
  unfold State.FaultOk
  rw [hfault, herr, hinfo]
  exact h

/-- A palette command: its own part by its lemma, the rest because the unit does not touch it. -/
theorem inv_of_palette {i : Instr} {s : State} (hs : s.Inv) (hi : i ∈ [Instr.pbuild, .pmask, .pindex, .quant])
    (hbody : (commandBody i s).Sat State.PaletteInv) : (commandBody i s).Sat State.Inv := by
  obtain ⟨-, hfault, hlzw⟩ := State.inv_iff.1 hs
  exact ((hbody.and (commandBody_frame i s)).and (commandBody_commandFrame i s)).mono fun t ⟨⟨hpal, hunit⟩, hframe⟩ =>
    State.inv_iff.2 ⟨hpal, hfault.of_unitFrame hunit, hlzw.of_samePalette (hframe.samePalette hi)⟩

/-- An LZW command, in the same way. -/
theorem inv_of_lzw {i : Instr} {s : State} (hs : s.Inv)
    (hi : i ∈ [Instr.lzwbegin, .lzwend, .lzwenc] ∨ ∃ v, i = .lzwpix v)
    (hbody : (commandBody i s).Sat State.LzwInv) : (commandBody i s).Sat State.Inv := by
  obtain ⟨hpal, hfault, -⟩ := State.inv_iff.1 hs
  exact ((hbody.and (commandBody_frame i s)).and (commandBody_commandFrame i s)).mono fun t ⟨⟨hlzw, hunit⟩, hframe⟩ =>
    State.inv_iff.2 ⟨hpal.of_sameLzw (hframe.sameLzw hi), hfault.of_unitFrame hunit, hlzw⟩

/-- No command stops from a state of the invariant, and each keeps it. -/
theorem commandBody_inv (i : Instr) {s : State} (hs : s.Inv) : (commandBody i s).Sat State.Inv := by
  obtain ⟨hpal, -, hlzw⟩ := State.inv_iff.1 hs
  cases i with
  | nop => exact hs
  | set ra imm =>
    show (setBody ra imm s).Sat State.Inv
    unfold setBody
    cases cfgRegOf ra with
    | none => exact hs
    | some r => exact hs.of_control _ s.pc s.cmdq
  | pbuild => exact inv_of_palette hs (by decide) (pbuildBody_paletteInv _ hpal)
  | pmask => exact inv_of_palette hs (by decide) (pmaskBody_paletteInv _ hpal)
  | pindex => exact inv_of_palette hs (by decide) (pindexBody_paletteInv _ hpal)
  | quant => exact inv_of_palette hs (by decide) (quantBody_paletteInv _ hpal)
  | lzwbegin => exact inv_of_lzw hs (.inl (by decide)) (lzwbegin_lzwInv hlzw)
  | lzwpix v => exact inv_of_lzw hs (.inr ⟨v, rfl⟩) (lzwpix_lzwInv hlzw v)
  | lzwend => exact inv_of_lzw hs (.inl (by decide)) (lzwend_lzwInv hlzw)
  | lzwenc => exact inv_of_lzw hs (.inl (by decide)) (lzwenc_lzwInv hlzw)

/-- The same for a word taken from the queue. -/
theorem execWord_inv (w : Word) {s : State} (hs : s.Inv) : ∃ t, execWord w s = .next t ∧ t.Inv := by
  cases hd : decode w with
  | ok i =>
    rw [execWord_of_decode hd, exec_eq_finish]
    exact (commandBody_inv i hs).finish_inv
  | error e =>
    rw [execWord_of_decodeError hd]
    exact ⟨_, rfl, hs.takeFault _ w⟩

/-- Settles O49: a quiescent block stays as it is; otherwise the word taken keeps the invariant, command by command. -/
theorem stepKeepsInvariantAndNeverStops : Obligations.StepKeepsInvariantAndNeverStops := by
  intro s hs
  obtain ⟨-, hstep⟩ | ⟨w, rest, -, -, hstep⟩ := step_cases s
  · exact ⟨s, hstep, hs⟩
  · rw [hstep]
    exact execWord_inv w (hs.of_control s.regs s.pc rest)

theorem core_run_succ (M : Host.Core) {n : Nat} {s t : M.State} (h : M.step s = .next t) :
    M.run (n + 1) s = M.run n t := by
  simp only [Host.Core.run, h]

/-- A run of a block in fault stays where it is. -/
theorem run_of_fault (n : Nat) {s : State} (hf : s.fault = true) : Host.Core.run core n s = .next s := by
  induction n with
  | zero => rfl
  | succ n ih => exact (core_run_succ core (step_of_fault hf)).trans ih

/-- Settles O9: one step per word queued; each takes its word and counts it, or faults, and then nothing changes any more. -/
theorem runOfQueueEnds : Obligations.RunOfQueueEnds := by
  intro s hs
  generalize hlen : s.cmdq.length = n
  induction n generalizing s with
  | zero =>
    have hq : s.cmdq = [] := List.eq_nil_of_length_eq_zero hlen
    exact ⟨s, rfl, by simp [State.quiescent, hq], fun _ => ⟨hq, by have := s.pc.isLt; omega⟩⟩
  | succ n ih =>
    by_cases hf : s.fault = true
    · exact ⟨s, run_of_fault _ hf, by simp [State.quiescent, hf], fun h => by simp [hf] at h⟩
    rw [Bool.not_eq_true] at hf
    obtain ⟨w, rest, hq⟩ := List.exists_cons_of_length_eq_add_one hlen
    obtain ⟨u, hu, huinv⟩ := stepKeepsInvariantAndNeverStops s hs
    obtain ⟨huq, hupc⟩ := pcAdvancesUnlessFault s u w rest hf hq hu
    have hrun : Host.Core.run core (n + 1) s = Host.Core.run core n u := core_run_succ core hu
    rw [hrun]
    by_cases huf : u.fault = true
    · exact ⟨u, run_of_fault n huf, by simp [State.quiescent, huf], fun h => by simp [huf] at h⟩
    · rw [Bool.not_eq_true] at huf
      obtain ⟨t, ht, htq, hdone⟩ := ih u huinv (by rw [huq]; simpa [hq] using hlen)
      refine ⟨t, ht, htq, fun htf => ⟨(hdone htf).1, ?_⟩⟩
      rw [(hdone htf).2, hupc, huf, if_neg Bool.false_ne_true]
      omega

end Sys2Proof.Machine
end

section
/-! The palette a `PBUILD` has built, and `PINDEX` after it (41_palette_quantizer.md sections 3 and 5): both are read off the
list of distinct colours of the frame. -/

namespace Sys2Proof.Machine

/-! ### Distinct colours -/

theorem moreColours_append (acc ps qs : List Pixel) : moreColours acc (ps ++ qs) = moreColours (moreColours acc ps) qs :=
  List.foldl_append

theorem mem_moreColours {acc ps : List Pixel} {p : Pixel} : p ∈ moreColours acc ps ↔ p ∈ acc ∨ p ∈ ps := by
  induction ps generalizing acc with
  | nil => simp
  | cons q ps ih =>
    by_cases hq : q ∈ acc
    · rw [moreColours_cons_of_mem hq, ih, List.mem_cons]
      exact ⟨fun h => h.imp_right .inr, fun h => h.elim .inl fun h => h.elim (fun heq => .inl (heq ▸ hq)) .inr⟩
    · rw [moreColours_cons_of_notMem hq, ih, List.mem_append, List.mem_singleton, List.mem_cons, or_assoc]

theorem nodup_moreColours {acc : List Pixel} (h : acc.Nodup) (ps : List Pixel) : (moreColours acc ps).Nodup := by
  induction ps generalizing acc with
  | nil => exact h
  | cons q ps ih =>
    by_cases hq : q ∈ acc
    · rw [moreColours_cons_of_mem hq]
      exact ih h
    · rw [moreColours_cons_of_notMem hq]
      exact ih (List.nodup_append.2 ⟨h, List.nodup_singleton q, fun a ha b hb => by
        rw [List.mem_singleton.1 hb]
        rintro rfl
        exact hq ha⟩)

theorem mem_distinctColours {ps : List Pixel} {p : Pixel} : p ∈ distinctColours ps ↔ p ∈ ps := by
  rw [distinctColours_eq_moreColours, mem_moreColours]
  simp

theorem nodup_distinctColours (ps : List Pixel) : (distinctColours ps).Nodup := nodup_moreColours List.nodup_nil ps

/-- The colours of a beginning are the first colours of the whole. -/
theorem distinctColours_isPrefix (ps qs : List Pixel) : distinctColours ps <+: distinctColours (ps ++ qs) := by
  rw [distinctColours_eq_moreColours (ps ++ qs), moreColours_append]
  exact moreColours_isPrefix _ qs

/-- One pixel more is at most one colour more, exactly if it is a new one. -/
theorem distinctColours_concat (ps : List Pixel) (p : Pixel) :
    distinctColours (ps ++ [p]) = if p ∈ ps then distinctColours ps else distinctColours ps ++ [p] := by
  rw [distinctColours_eq_moreColours, moreColours_append, ← distinctColours_eq_moreColours]
  by_cases hp : p ∈ ps
  · rw [if_pos hp, moreColours_cons_of_mem (mem_distinctColours.2 hp), moreColours_nil]
  · rw [if_neg hp, moreColours_cons_of_notMem fun h => hp (mem_distinctColours.1 h), moreColours_nil]

/-- The pixel that brings the number of colours from `n` to `n + 1`. -/
theorem exists_overflow_pixel {n : Nat} {ps : List Pixel} (h : n < (distinctColours ps).length) :
    ∃ k, ∃ hk : k < ps.length, (distinctColours (ps.take k)).length = n ∧ ps[k] ∉ ps.take k := by
  induction ps using List.reverseRecOn with
  | nil => exact absurd h (Nat.not_lt_zero n)
  | append_singleton ps p ih =>
    rcases Nat.lt_or_ge n (distinctColours ps).length with hlt | hge
    · obtain ⟨k, hk, hlen, hnew⟩ := ih hlt
      refine ⟨k, by simp; omega, ?_, ?_⟩
      · rwa [List.take_append_of_le_length hk.le]
      · rwa [List.take_append_of_le_length hk.le, List.getElem_append_left hk]
    · have hnew : p ∉ ps := fun hp => by
        rw [distinctColours_concat, if_pos hp] at h
        omega
      rw [distinctColours_concat, if_neg hnew, List.length_append, List.length_singleton] at h
      refine ⟨ps.length, by simp, ?_, ?_⟩
      · rw [List.take_left]
        omega
      · simpa using hnew

/-! ### The palette as a list -/

theorem State.hasMatch_iff {s : State} {p : Pixel} : s.HasMatch p ↔ p ∈ s.palColours s.palSize.toNat := by
  simp [State.HasMatch, State.palColours]

/-- The palette built is the first `MAXSIZE` colours. -/
theorem PaletteBuilt.palColours_eq {s t : State} {cs : List Pixel} (h : PaletteBuilt s cs t) :
    t.palColours t.palSize.toNat = cs.take s.regs.maxsize.toNat := by
  refine List.ext_getElem (by rw [State.length_palColours, List.length_take, h.size]) fun m hm hm' => ?_
  rw [State.length_palColours] at hm
  rw [State.getElem_palColours, List.getElem_take]
  exact Option.some.inj ((h.colours m hm).symm.trans (List.getElem?_eq_getElem _))

theorem PaletteBuilt.palColours_of_noOverflow {s t : State} {cs : List Pixel} (h : PaletteBuilt s cs t)
    (hovf : t.ovf = false) : t.palColours t.palSize.toNat = cs := by
  have hle : cs.length ≤ s.regs.maxsize.toNat := by
    by_contra hlt
    rw [h.overflow.2 (by omega)] at hovf
    cases hovf
  rw [h.palColours_eq, List.take_of_length_le hle]

theorem State.mem_framePixels {s : State} {p : Pixel} : p ∈ s.framePixels ↔ ∃ k, k < s.frameArea ∧ s.readTc k = p := by
  simp [State.framePixels]

theorem State.getElem_framePixels (s : State) {k : Nat} (hk : k < s.framePixels.length) :
    s.framePixels[k] = s.readTc k := by simp [State.framePixels]

@[simp] theorem State.length_framePixels (s : State) : s.framePixels.length = s.frameArea := by simp [State.framePixels]

/-- A `PBUILD` that did not fault had legal settings and built the palette of the frame. -/
theorem exec_pbuild_completed {s t : State} (h : exec .pbuild s = .next t) (hfault : t.fault = false) :
    s.FrameLegal ∧ s.MaxsizeLegal
      ∧ ∃ u, PaletteBuilt s (distinctColours s.framePixels) u ∧ t = { u with pc := u.pc + 1#32 } := by
  by_cases hlegal : s.FrameLegal ∧ s.MaxsizeLegal
  · obtain ⟨u, hu, hbuilt⟩ := pbuildPass_paletteBuilt hlegal.1 hlegal.2
    rw [exec_eq_finish, commandBody, pbuildBody_legal hlegal.1 hlegal.2, hu, finish_ok] at h
    cases h
    exact ⟨hlegal.1, hlegal.2, u, hbuilt, rfl⟩
  · rw [(pbuildCollectsDistinctColours s).1 hlegal] at h
    cases h
    cases hfault

/-- Settles O15: without overflow the palette is the list of distinct colours of the frame. -/
theorem pbuildPaletteIsExact : Obligations.PbuildPaletteIsExact := by
  rintro s t - h hfault hovf
  obtain ⟨hframe, -, u, hbuilt, rfl⟩ := exec_pbuild_completed h hfault
  have hpal : u.palColours u.palSize.toNat = distinctColours s.framePixels := hbuilt.palColours_of_noOverflow hovf
  have hmem : ∀ p, u.HasMatch p ↔ ∃ k, k < s.frameArea ∧ s.readTc k = p := fun p => by
    rw [State.hasMatch_iff, hpal, mem_distinctColours, State.mem_framePixels]
  refine ⟨⟨?_, ?_⟩, fun m m' hm hm' heq => ?_, fun m hm => ?_, fun k hk => (hmem _).2 ⟨k, hk, rfl⟩⟩
  · obtain ⟨m, hm, -⟩ := (hmem (s.readTc 0)).2 ⟨0, hframe.area_pos, rfl⟩
    exact Nat.one_le_of_lt hm
  · exact hbuilt.size.trans_le (Nat.min_le_left _ _)
  · have hnodup := nodup_distinctColours s.framePixels
    rw [← hpal] at hnodup
    refine (hnodup.getElem_inj_iff (hi := by rwa [State.length_palColours]) (hj := by rwa [State.length_palColours])).1 ?_
    rw [State.getElem_palColours, State.getElem_palColours]
    exact heq
  · obtain ⟨k, hk, heq⟩ := (hmem _).1 ⟨m, hm, rfl⟩
    exact ⟨k, hk, heq.symm⟩

/-! ### `PINDEX` after `PBUILD` -/

/-- Settles O19: without overflow every pixel is in the palette; with overflow the palette is full with the colours before
the first pixel that brings one more. -/
theorem pindexAfterPbuildMissesOnlyOnOverflow : Obligations.PindexAfterPbuildMissesOnlyOnOverflow := by
  rintro s t - h hfault
  obtain ⟨hframe, hmax, u, hbuilt, rfl⟩ := exec_pbuild_completed h hfault
  set t : State := { u with pc := u.pc + 1#32 }
  have hlegal : t.FrameLegal ∧ t.frameArea = s.frameArea ∧ t.readTc = s.readTc := by
    simp only [t]
    rw [hbuilt.same]
    exact ⟨hframe, rfl, rfl⟩
  obtain ⟨htframe, harea, htc⟩ := hlegal
  have hp : t.palSize.toNat ≤ 256 := by
    have hle : t.palSize.toNat ≤ s.regs.maxsize.toNat := hbuilt.size.trans_le (Nat.min_le_left _ _)
    exact hle.trans hmax.bounds.2
  have hmatch : ∀ p, t.HasMatch p ↔ p ∈ (distinctColours s.framePixels).take s.regs.maxsize.toNat := fun p => by
    rw [← hbuilt.palColours_eq]
    exact State.hasMatch_iff
  refine ⟨fun hovf => ?_, fun hovf => ?_⟩
  · have hall : ∀ k, k < t.frameArea → t.HasMatch (t.readTc k) := fun k hk => by
      rw [hmatch, ← hbuilt.palColours_eq, hbuilt.palColours_of_noOverflow hovf, mem_distinctColours, htc]
      exact State.mem_framePixels.2 ⟨k, harea ▸ hk, rfl⟩
    obtain ⟨v, hv, hindexed⟩ := pindexScan_indexes hp hall
    refine ⟨{ v with pc := v.pc + 1#32 }, by rw [exec_pindex_legal htframe, hv, finish_ok], ?_⟩
    rw [hindexed.same]
    exact hfault
  · obtain ⟨k, hk, hlen, hnew⟩ := exists_overflow_pixel (hbuilt.overflow.1 hovf)
    rw [State.getElem_framePixels] at hnew
    have hbefore : (distinctColours s.framePixels).take s.regs.maxsize.toNat = distinctColours (s.framePixels.take k) := by
      have hpre := distinctColours_isPrefix (s.framePixels.take k) (s.framePixels.drop k)
      rw [List.take_append_drop] at hpre
      rw [← hlen]
      exact (List.prefix_iff_eq_take.1 hpre).symm
    have hmatch' : ∀ p, t.HasMatch p ↔ p ∈ s.framePixels.take k := fun p => by
      rw [hmatch, hbefore, mem_distinctColours]
    have hk' : k < s.frameArea := by rwa [State.length_framePixels] at hk
    obtain ⟨v, hv, -⟩ := pindexScan_raises (s := t) (k := k) (n := t.frameArea) (harea.symm ▸ hk') hp
      (fun m hm heq => hnew ((hmatch' _).1 ⟨m, hm, by rw [heq, htc]⟩))
      (fun j hj => (hmatch' _).2 (by
        rw [htc, ← s.getElem_framePixels (by omega : j < s.framePixels.length)]
        exact List.mem_take_iff_getElem.2 ⟨j, by omega, rfl⟩))
    refine ⟨v.takeFault .noMatch (BitVec.ofNat 32 k), k, by rw [exec_pindex_legal htframe, hv, finish_raised], rfl, rfl, rfl,
      hk', hlen, ?_⟩
    rw [← List.take_concat_get' _ k hk, distinctColours_concat, State.getElem_framePixels, if_neg hnew, List.length_append,
      hlen, List.length_singleton]

/-! ### Running either again -/

theorem exec_inv {i : Instr} {s t : State} (hs : s.Inv) (h : exec i s = .next t) : t.Inv := by
  obtain ⟨u, hu, hinv⟩ := (commandBody_inv i hs).finish_inv
  rw [exec_eq_finish, hu] at h
  cases h
  exact hinv

theorem State.Inv.paletteInv {s : State} (h : s.Inv) : s.PaletteInv := (State.inv_iff.1 h).1

/-- Built twice from the same colours the palette is the same. -/
theorem PaletteBuilt.again {r s t : State} {cs : List Pixel} {p : BitVec 32} (hs : PaletteBuilt r cs s)
    (ht : PaletteBuilt { s with pc := p } cs t) (hwf : Memory.wf unwrittenPixel s.pal = true)
    (hwf' : Memory.wf unwrittenPixel t.pal = true) : t = { s with pc := p } := by
  have hmax : s.regs = r.regs := by rw [hs.same]
  have hovf : t.ovf = s.ovf := by
    rw [Bool.eq_iff_iff, hs.overflow, ht.overflow, ← hmax]
  have hsize : t.palSize = s.palSize := BitVec.eq_of_toNat_eq (by rw [hs.size, ht.size, ← hmax])
  have hpal : t.pal = s.pal := Memory.ext_of_read hwf' hwf fun m => by
    show t.readPal m = s.readPal m
    rcases Nat.lt_or_ge m t.palSize.toNat with hm | hm
    · exact Option.some.inj ((ht.colours m hm).symm.trans (hs.colours m (hsize ▸ hm)))
    · exact ht.rest m hm
  rw [ht.same, hovf, hsize, hpal]

/-- Some pixel has no match, and a first one, or all have one. -/
theorem hasMatch_cases (s : State) (n : Nat) :
    (∀ k, k < n → s.HasMatch (s.readTc k))
      ∨ ∃ k, k < n ∧ ¬ s.HasMatch (s.readTc k) ∧ ∀ j, j < k → s.HasMatch (s.readTc j) := by
  induction n with
  | zero => exact .inl fun k hk => absurd hk (Nat.not_lt_zero k)
  | succ n ih =>
    obtain hall | ⟨k, hk, hmiss, hbefore⟩ := ih
    · by_cases hn : s.HasMatch (s.readTc n)
      · exact .inl fun k hk => (Nat.lt_succ_iff_lt_or_eq.1 hk).elim (hall k) fun heq => heq ▸ hn
      · exact .inr ⟨n, Nat.lt_succ_self n, hn, hall⟩
    · exact .inr ⟨k, hk.trans (Nat.lt_succ_self n), hmiss, hbefore⟩

/-- A `PINDEX` that did not fault found every pixel. -/
theorem exec_pindex_completed {s t : State} (hp : s.palSize.toNat ≤ 256) (h : exec .pindex s = .next t)
    (hfault : t.fault = false) :
    s.FrameLegal ∧ (∀ k, k < s.frameArea → s.HasMatch (s.readTc k))
      ∧ ∃ u, IndexedUpTo s s.frameArea u ∧ t = { u with pc := u.pc + 1#32 } := by
  by_cases hframe : s.FrameLegal
  case neg =>
    rw [(pindexFindsLowestMatch s).1 hframe] at h
    cases h
    cases hfault
  rw [exec_pindex_legal hframe] at h
  obtain hall | ⟨k, hk, hmiss, hbefore⟩ := hasMatch_cases s s.frameArea
  · obtain ⟨u, hu, hindexed⟩ := pindexScan_indexes hp hall
    rw [hu, finish_ok] at h
    cases h
    exact ⟨hframe, hall, u, hindexed, rfl⟩
  · obtain ⟨u, hu, -⟩ := pindexScan_raises hk hp (fun m hm heq => hmiss ⟨m, hm, heq⟩) hbefore
    rw [hu, finish_raised] at h
    cases h
    cases hfault

theorem State.IsLowestMatch.unique {s : State} {b b' : Byte} {p : Pixel} (h : s.IsLowestMatch b p)
    (h' : s.IsLowestMatch b' p) : b = b' := by
  obtain ⟨-, heq, hlow⟩ := h
  obtain ⟨-, heq', hlow'⟩ := h'
  refine BitVec.eq_of_toNat_eq (Nat.le_antisymm ?_ ?_)
  · exact Nat.le_of_not_lt fun hlt => hlow _ hlt heq'
  · exact Nat.le_of_not_lt fun hlt => hlow' _ hlt heq

/-- Indexed twice by the same palette the frame is the same. -/
theorem IndexedUpTo.again {r s t : State} {n : Nat} {p : BitVec 32} (hs : IndexedUpTo r n s)
    (ht : IndexedUpTo { s with pc := p } n t) (hwf : Memory.wf unwrittenByte s.idx = true)
    (hwf' : Memory.wf unwrittenByte t.idx = true) : t = { s with pc := p } := by
  have hlowest : s.IsLowestMatch = r.IsLowestMatch ∧ s.readTc = r.readTc := by rw [hs.same]; exact ⟨rfl, rfl⟩
  have hidx : t.idx = s.idx := Memory.ext_of_read hwf' hwf fun k => by
    show t.readIdx k = s.readIdx k
    rcases Nat.lt_or_ge k n with hk | hk
    · have hagain : s.IsLowestMatch (t.readIdx k) (s.readTc k) := ht.indexed k hk
      rw [hlowest.1, hlowest.2] at hagain
      exact hagain.unique (hs.indexed k hk)
    · exact ht.rest k hk
  rw [ht.same, hidx]

/-- Settles O21: the second run reads the same frame, and finds or builds what it reads back unchanged; canonical memories
that read alike are equal. -/
theorem pbuildAndPindexAreIdempotent : Obligations.PbuildAndPindexAreIdempotent := by
  intro s t hs _
  refine ⟨fun h hfault => ?_, fun h hfault => ?_⟩
  · have htinv := exec_inv hs h
    obtain ⟨hframe, hmax, u, hbuilt, rfl⟩ := exec_pbuild_completed h hfault
    set t : State := { u with pc := u.pc + 1#32 } with ht
    have hlegal : t.FrameLegal ∧ t.MaxsizeLegal ∧ t.framePixels = s.framePixels := by
      rw [ht, hbuilt.same]
      exact ⟨hframe, hmax, rfl⟩
    obtain ⟨htframe, htmax, hpixels⟩ := hlegal
    obtain ⟨v, hv, hagain⟩ := pbuildPass_paletteBuilt htframe htmax
    have hexec : exec .pbuild t = .next { v with pc := v.pc + 1#32 } := by
      rw [exec_eq_finish, commandBody, pbuildBody_legal htframe htmax, hv, finish_ok]
    rw [hpixels] at hagain
    have hvt : v = t := hbuilt.again hagain htinv.paletteInv.pal.1 (exec_inv htinv hexec).paletteInv.pal.1
    rw [hexec, hvt]
  · have htinv := exec_inv hs h
    obtain ⟨hframe, hall, u, hindexed, rfl⟩ := exec_pindex_completed hs.paletteInv.size h hfault
    set t : State := { u with pc := u.pc + 1#32 } with ht
    have hsame : t.FrameLegal ∧ t.frameArea = s.frameArea ∧ t.HasMatch = s.HasMatch ∧ t.readTc = s.readTc := by
      rw [ht, hindexed.same]
      exact ⟨hframe, rfl, rfl, rfl⟩
    obtain ⟨htframe, harea, hmatch, htc⟩ := hsame
    obtain ⟨v, hv, hagain⟩ := pindexScan_indexes (s := t) (n := t.frameArea) htinv.paletteInv.size
      (by rw [harea, hmatch, htc]; exact hall)
    have hexec : exec .pindex t = .next { v with pc := v.pc + 1#32 } := by
      rw [exec_pindex_legal htframe, hv, finish_ok]
    rw [harea] at hagain
    have hvt : v = t := hindexed.again hagain htinv.paletteInv.idx.1 (exec_inv htinv hexec).paletteInv.idx.1
    rw [hexec, hvt]

end Sys2Proof.Machine
end

section
/-! `QUANT` (41_palette_quantizer.md section 6): every retry of its loop has the frame masked one step further, and after
eight steps there is one colour. -/

namespace Sys2Proof.Machine

/-- The distinct colours of the frame of `s` after `j` masking steps. -/
def State.coloursAt (s : State) (j : Nat) : List Pixel := distinctColours (s.framePixels.map (clearLowPixel j))

/-- After eight steps every pixel is black (41_palette_quantizer.md R137). -/
theorem State.length_coloursAt_eight (s : State) : (s.coloursAt 8).length ≤ 1 := by
  have hblack : s.coloursAt 8 ⊆ [{ r := 0#8, g := 0#8, b := 0#8 }] := by
    intro p hp
    obtain ⟨q, -, rfl⟩ := List.mem_map.1 (mem_distinctColours.1 hp)
    rw [← maskPixel_channelMask q le_rfl, maskPixel_channelMask_eight]
    exact List.mem_singleton.2 rfl
  exact ((nodup_distinctColours _).subperm hblack).length_le

theorem State.getElem?_palColours (s : State) {m n : Nat} (h : m < n) : (s.palColours n)[m]? = some (s.readPal m) := by
  simp [State.palColours, h]

/-! ### One pass -/

/-- `t` is `s` after the pass of `QUANT` over the frame masked `j` times. -/
structure QuantPass (s : State) (j : Nat) (t : State) : Prop where
  same : t = { s with
    regs := { s.regs with maskStep := BitVec.ofNat 16 j }, ovf := t.ovf, palSize := t.palSize, tc := t.tc, pal := t.pal }
  frame : ∀ k, k < s.frameArea → t.readTc k = clearLowPixel j (s.readTc k)
  frameRest : ∀ k, s.frameArea ≤ k → t.readTc k = s.readTc k
  overflow : t.ovf = true ↔ s.regs.maxsize.toNat < (s.coloursAt j).length
  palette : t.palColours t.palSize.toNat = (s.coloursAt j).take s.regs.maxsize.toNat
  palRest : ∀ m, s.regs.maxsize.toNat ≤ m → t.readPal m = s.readPal m

/-- A pass without overflow has a palette of all colours. -/
theorem QuantPass.palette_of_noOverflow {s t : State} {j : Nat} (h : QuantPass s j t) (hovf : t.ovf = false) :
    (s.coloursAt j).length ≤ s.regs.maxsize.toNat ∧ t.palColours t.palSize.toNat = s.coloursAt j := by
  have hfits : (s.coloursAt j).length ≤ s.regs.maxsize.toNat := by
    by_contra hlt
    rw [h.overflow.2 (by omega)] at hovf
    cases hovf
  exact ⟨hfits, h.palette.trans (List.take_of_length_le hfits)⟩

section
variable {s : State} (hframe : s.FrameLegal) (hmax : s.MaxsizeLegal)
include hframe hmax

/-- A pass over a frame `r`, which is the frame of `s` masked `j` times, its palette not touched from `MAXSIZE` on. -/
theorem pbuild_quantPass {r : State} {j : Nat} (w : Word)
    (hr : r = { s with
      regs := { s.regs with maskStep := BitVec.ofNat 16 j }, ovf := r.ovf, palSize := r.palSize, tc := r.tc, pal := r.pal })
    (hmasked : ∀ k, k < s.frameArea → r.readTc k = clearLowPixel j (s.readTc k))
    (hrest : ∀ k, s.frameArea ≤ k → r.readTc k = s.readTc k)
    (hpal : ∀ m, s.regs.maxsize.toNat ≤ m → r.readPal m = s.readPal m) :
    ∃ t, pbuildBody w r = .ok t ∧ QuantPass s j t := by
  have hlegal : r.FrameLegal ∧ r.MaxsizeLegal ∧ r.frameArea = s.frameArea ∧ r.regs.maxsize = s.regs.maxsize := by
    rw [hr]; exact ⟨hframe, hmax, rfl, rfl⟩
  obtain ⟨hrframe, hrmax, harea, hmaxsize⟩ := hlegal
  have hpixels : r.framePixels = s.framePixels.map (clearLowPixel j) := by
    unfold State.framePixels
    rw [harea, List.map_map]
    exact List.map_congr_left fun k hk => hmasked k (List.mem_range.1 hk)
  obtain ⟨t, ht, hbuilt⟩ := pbuildPass_paletteBuilt hrframe hrmax
  obtain ⟨_, ht', -, -, -, hkept, -⟩ := pbuildPass_spec hrmax
  obtain rfl := Done.ok.inj (ht.symm.trans ht')
  rw [hpixels, ← State.coloursAt] at hbuilt
  have htc : t.readTc = r.readTc := by rw [hbuilt.same]; rfl
  refine ⟨t, by rw [pbuildBody_legal hrframe hrmax, ht], ?_, fun k hk => ?_, fun k hk => ?_, ?_, ?_, fun m hm => ?_⟩
  · rw [hbuilt.same, hr]
  · rw [htc, hmasked k hk]
  · rw [htc, hrest k hk]
  · rw [hbuilt.overflow, hmaxsize]
  · rw [hbuilt.palColours_eq, hmaxsize]
  · rw [hkept m (hmaxsize ▸ hm), hpal m hm]

/-- The first pass, over the frame as it is. -/
theorem quantPass_zero (w : Word) : ∃ t, pbuildBody w (s.setCfg .maskStep 0#16) = .ok t ∧ QuantPass s 0 t := by
  refine pbuild_quantPass hframe hmax w rfl (fun k _ => ?_) (fun _ _ => rfl) fun _ _ => rfl
  rw [← maskPixel_channelMask _ (Nat.zero_le 8), maskPixel_channelMask_zero]
  rfl

/-- A retry: `PMASK`, then `PBUILD`. -/
theorem QuantPass.retry {t : State} {j : Nat} (w : Word) (h : QuantPass s j t) (hj : j < 8) :
    ∃ u, (pmaskBody w t).bind (pbuildBody w) = .ok u ∧ QuantPass s (j + 1) u := by
  have hsame : t.FrameLegal ∧ t.frameArea = s.frameArea ∧ t.regs.maskStep = BitVec.ofNat 16 j := by
    rw [h.same]; exact ⟨hframe, rfl, rfl⟩
  obtain ⟨htframe, harea, hstep⟩ := hsame
  have hsteps : t.regs.maskStep.toNat = j := by
    rw [hstep, BitVec.toNat_ofNat]
    omega
  obtain ⟨r, hr, hrsame, hread, -⟩ := maskFrame_spec (t.setCfg .maskStep (BitVec.ofNat 16 (j + 1)))
  have hmask : ∀ k, r.readTc k = if k < s.frameArea then maskPixel (t.readTc k) (channelMask (j + 1)) else t.readTc k := by
    intro k
    have hmod : (BitVec.ofNat 16 (j + 1)).toNat = j + 1 := by rw [BitVec.toNat_ofNat]; omega
    rw [← harea, ← hmod]
    exact hread k
  have hframe' : ∀ k, k < s.frameArea → r.readTc k = clearLowPixel (j + 1) (s.readTc k) := fun k hk =>
    calc r.readTc k
      _ = maskPixel (clearLowPixel j (s.readTc k)) (channelMask (j + 1)) := by rw [hmask k, if_pos hk, h.frame k hk]
      _ = maskPixel (maskPixel (s.readTc k) (channelMask j)) (channelMask (j + 1)) := by
        rw [maskPixel_channelMask _ hj.le]
      _ = maskPixel (s.readTc k) (channelMask (j + 1)) := maskPixel_channelMask_succ _ hj
      _ = clearLowPixel (j + 1) (s.readTc k) := maskPixel_channelMask _ hj
  have hrest' : ∀ k, s.frameArea ≤ k → r.readTc k = s.readTc k := fun k hk => by
    rw [hmask k, if_neg (Nat.not_lt.2 hk), h.frameRest k hk]
  have hpal' : ∀ m, s.regs.maxsize.toNat ≤ m → r.readPal m = s.readPal m := fun m hm => by
    rw [← h.palRest m hm, hrsame]
    rfl
  obtain ⟨u, hu, hpass⟩ := pbuild_quantPass hframe hmax w (by rw [hrsame, h.same]; rfl) hframe' hrest' hpal'
  refine ⟨u, ?_, hpass⟩
  rw [pmaskBody_legal htframe (by omega), hsteps, hr, Done.ok_bind, hu]

/-- The loop ends at the first pass without overflow, which comes after eight masking steps at the latest. -/
theorem QuantPass.loop {t : State} {n j : Nat} (w : Word) (h : QuantPass s j t) (hj : j + n = 8) :
    ∃ (u : State) (j' : Nat), quantLoop w n t = .ok u ∧ QuantPass s j' u ∧ j ≤ j' ∧ j' ≤ 8 ∧ u.ovf = false
      ∧ ∀ i, j ≤ i → i < j' → s.regs.maxsize.toNat < (s.coloursAt i).length := by
  by_cases hovf : t.ovf = true
  case neg =>
    have hstop : quantLoop w n t = .ok t := by cases n <;> simp [quantLoop, hovf]
    exact ⟨t, j, hstop, h, le_rfl, by omega, Bool.not_eq_true _ ▸ hovf, fun i h1 h2 => absurd h2 (by omega)⟩
  have hmore := h.overflow.1 hovf
  cases n with
  | zero =>
    have hblack := s.length_coloursAt_eight
    have := hmax.bounds.1
    rw [show j = 8 by omega] at hmore
    omega
  | succ n =>
    obtain ⟨u, hu, hpass⟩ := h.retry hframe hmax w (by omega)
    obtain ⟨v, j', hv, hdone, hle, hle8, hend, hbefore⟩ := QuantPass.loop w hpass (n := n) (by omega)
    refine ⟨v, j', ?_, hdone, by omega, hle8, hend, fun i h1 h2 => ?_⟩
    · rw [quantLoop, if_pos hovf, ← hv, ← Done.ok_bind u (quantLoop w n), ← hu, Done.bind_assoc]
    · rcases Nat.lt_or_eq_of_le h1 with hlt | rfl
      · exact hbefore i hlt h2
      · exact hmore

/-- On legal settings `QUANT` completes: a pass without overflow, then `PINDEX` over a palette that has every colour. -/
theorem quantBody_completes (w : Word) :
    ∃ (j : Nat) (u v : State), quantBody w s = .ok v ∧ j ≤ 8 ∧ QuantPass s j u ∧ u.ovf = false
      ∧ (∀ i, i < j → s.regs.maxsize.toNat < (s.coloursAt i).length) ∧ IndexedUpTo u s.frameArea v := by
  obtain ⟨t, ht, hstart⟩ := quantPass_zero hframe hmax w
  obtain ⟨u, j, hu, hpass, -, hj, hovf, hbefore⟩ := hstart.loop hframe hmax (n := 8) w rfl
  have hsame : u.FrameLegal ∧ u.frameArea = s.frameArea := by rw [hpass.same]; exact ⟨hframe, rfl⟩
  obtain ⟨huframe, harea⟩ := hsame
  obtain ⟨hfits, hpal⟩ := hpass.palette_of_noOverflow hovf
  have hsize : u.palSize.toNat ≤ 256 := by
    have := hmax.bounds.2
    have := congrArg List.length hpal
    rw [State.length_palColours] at this
    omega
  obtain ⟨v, hv, hindexed⟩ := pindexScan_indexes (s := u) (n := s.frameArea) hsize fun k hk => by
    rw [State.hasMatch_iff, hpal, State.coloursAt, mem_distinctColours, hpass.frame k hk]
    exact List.mem_map_of_mem (State.mem_framePixels.2 ⟨k, hk, rfl⟩)
  refine ⟨j, u, v, ?_, hj, hpass, hovf, fun i hi => hbefore i (Nat.zero_le i) hi, hindexed⟩
  rw [quantBody, frameCheck_legal hframe, Done.ok_bind, maxsizeCheck_legal hmax, Done.ok_bind, ht, Done.ok_bind, hu,
    Done.ok_bind, pindexBody, frameCheck_legal huframe, Done.ok_bind, harea, hv]

end

/-- Settles O20: the pass and the indexing of `quantBody_completes`, read field by field. -/
theorem quantConverges : Obligations.QuantConverges := by
  intro s hframe hmax
  obtain ⟨j, u, v, hv, hj, hpass, hovf, hbefore, hindexed⟩ := quantBody_completes hframe hmax (encode .quant)
  have hsame : v.palSize = u.palSize ∧ v.readTc = u.readTc ∧ v.readPal = u.readPal ∧ u.readIdx = s.readIdx := by
    rw [hindexed.same, hpass.same]; exact ⟨rfl, rfl, rfl, rfl⟩
  obtain ⟨hvsize, hvtc, hvpal, huidx⟩ := hsame
  obtain ⟨hfits, hpal⟩ := hpass.palette_of_noOverflow hovf
  have hsize : u.palSize.toNat = (s.coloursAt j).length := by rw [← hpal, State.length_palColours]
  set t : State := { v with pc := v.pc + 1#32 }
  have htsize : t.palSize = u.palSize := hvsize
  have htpal : t.readPal = u.readPal := hvpal
  have httc : t.readTc = u.readTc := hvtc
  refine ⟨t, j, ?_, ?_, hj, hfits, hbefore, fun k hk => ?_, fun k hk => ?_, ?_, fun m hm => ?_, fun m hm => ?_,
    fun k hk => ?_, fun k hk => ?_⟩
  · rw [exec_eq_finish, commandBody, hv, finish_ok]
  · simp only [t]
    rw [hindexed.same, hpass.same, hovf]
  · rw [httc, hpass.frame k hk]
  · rw [httc, hpass.frameRest k hk]
  · rw [htsize, hsize]
    rfl
  · rw [htpal, ← u.getElem?_palColours (htsize ▸ hm), hpal]
    rfl
  · rw [htpal, hpass.palRest m hm]
  · rw [htpal, httc, htsize]
    exact ⟨(hindexed.indexed k hk).1, (hindexed.indexed k hk).2.1⟩
  · exact (hindexed.rest k hk).trans (congrFun huidx k)

/-- Settles O40: legal settings complete, and illegal ones are refused by the first two checks. -/
theorem quantRaisesOnlyConfigurationFaults : Obligations.QuantRaisesOnlyConfigurationFaults := by
  intro s t hs h hfault
  by_cases hframe : s.FrameLegal
  · by_cases hmax : s.MaxsizeLegal
    · obtain ⟨t', j, ht', hsame, -⟩ := quantConverges s hframe hmax
      cases ht'.symm.trans h
      rw [hsame] at hfault
      exact absurd (hs.symm.trans hfault) Bool.false_ne_true
    · rw [maxsizeCheckFaults s hframe hmax .quant (by decide)] at h
      cases h
      exact ⟨rfl, fun hlegal => hmax hlegal.2⟩
  · rw [(frameCheckFaults s hframe).1 .quant (by decide)] at h
    cases h
    exact ⟨rfl, fun hlegal => hframe hlegal.1⟩

end Sys2Proof.Machine
end

section
/-! Faults are precise (60_exceptions.md section 3): where each command can raise, and in what state. -/

namespace Sys2Proof.Machine

/-! ### Raising before any change -/

/-- Whatever the part raises, it raises in the state `s` and with the word `w`. -/
def Done.RaisesUnchanged (w : Word) (s : State) (x : Done) : Prop := ∀ e i t, x = .raised e i t → i = w ∧ t = s

section
variable {w : Word} {s : State}

theorem Done.RaisesUnchanged.of_ne {x : Done} (h : ∀ e i t, x ≠ .raised e i t) : x.RaisesUnchanged w s :=
  fun e i t hx => absurd hx (h e i t)

/-- A check, and what follows it if it passes. -/
theorem Done.RaisesUnchanged.after_check {x : Done} {f : State → Done} (hx : x.RaisesUnchanged w s)
    (hs : x.SatIfRuns (· = s)) (hf : (f s).RaisesUnchanged w s) : (x.bind f).RaisesUnchanged w s := by
  intro e i t h
  obtain h | ⟨u, rfl, h⟩ := Done.bind_eq_raised.1 h
  · exact hx e i t h
  · obtain rfl : u = s := hs
    exact hf e i t h

/-- A check is a test that passes or raises. -/
theorem Done.raisesUnchanged_ite {e : ErrCode} {c : Prop} [Decidable c] :
    (if c then Done.ok s else .raised e w s).RaisesUnchanged w s := by
  intro e' i t h
  split at h <;> cases h
  exact ⟨rfl, rfl⟩

theorem Done.raisesUnchanged_ite' {e : ErrCode} {c : Prop} [Decidable c] :
    (if c then Done.raised e w s else .ok s).RaisesUnchanged w s := by
  intro e' i t h
  split at h <;> cases h
  exact ⟨rfl, rfl⟩

end

/-! ### Parts that raise nothing -/

theorem pbuildScan_ne_raised {n k size : Nat} {s : State} (e : ErrCode) (i : Word) (t : State) :
    pbuildScan n k size s ≠ .raised e i t := by
  induction n generalizing k size s with
  | zero => intro h; cases h
  | succ n ih =>
    rw [pbuildScan]
    split
    · exact ih
    · split
      · intro h; cases h
      · exact ih

theorem maskFrame_ne_raised {s : State} (e : ErrCode) (i : Word) (t : State) : maskFrame s ≠ .raised e i t := by
  obtain ⟨u, hu, -⟩ := maskFrame_spec s
  rw [hu]
  intro h
  cases h

theorem beginBody_active (s : State) : (beginBody s).SatIfRuns (·.active = true) := by
  unfold beginBody
  split
  · exact emit_satIfRuns.mono fun t ht => by rw [ht.1]; rfl
  · rfl

/-- A scan raises what its body raises. -/
theorem forFrom_raised {e₀ : ErrCode} {body : Nat → State → Done}
    (hb : ∀ k s e i t, body k s = .raised e i t → e = e₀) {n a : Nat} {s t : State} {e : ErrCode} {i : Word}
    (h : forFrom n a body s = .raised e i t) : e = e₀ := by
  induction n generalizing a s with
  | zero => cases h
  | succ n ih =>
    obtain h | ⟨u, -, h⟩ := Done.bind_eq_raised.1 h
    · exact hb _ _ _ _ _ h
    · exact ih h

theorem pindexPixel_raised {k : Nat} {s t : State} {e : ErrCode} {i : Word} (h : pindexPixel k s = .raised e i t) :
    e = .noMatch := by
  unfold pindexPixel at h
  split at h
  · cases h
  · split at h <;> cases h
    rfl

/-! ### Every command -/

/-- All but the two scans raise before they change anything. -/
theorem commandBody_raisesUnchanged {i : Instr} (hpindex : i ≠ .pindex) (hlzwenc : i ≠ .lzwenc) (s : State) :
    (commandBody i s).RaisesUnchanged (encode i) s := by
  cases i with
  | nop => exact .of_ne fun _ _ _ h => by cases h
  | set ra imm =>
    intro e i t h
    rw [commandBody, setBody] at h
    split at h <;> cases h
    exact ⟨rfl, rfl⟩
  | pbuild =>
    exact .after_check Done.raisesUnchanged_ite (frameCheck_frame _ s) <|
      .after_check Done.raisesUnchanged_ite (maxsizeCheck_frame _ s) (.of_ne pbuildScan_ne_raised)
  | pmask =>
    exact .after_check Done.raisesUnchanged_ite (frameCheck_frame _ s) <|
      .after_check Done.raisesUnchanged_ite' (maskLimCheck_frame _ s) (.of_ne maskFrame_ne_raised)
  | pindex => exact absurd rfl hpindex
  | quant =>
    show (quantBody (encode .quant) s).RaisesUnchanged _ s
    by_cases hframe : s.FrameLegal
    · by_cases hmax : s.MaxsizeLegal
      · obtain ⟨-, -, v, hv, -⟩ := quantBody_completes hframe hmax (encode .quant)
        exact .of_ne fun _ _ _ h => by cases hv.symm.trans h
      · rw [quantBody, frameCheck_legal hframe, Done.ok_bind, maxsizeCheck_illegal hmax]
        exact fun _ _ _ h => by cases h; exact ⟨rfl, rfl⟩
    · rw [quantBody, frameCheck_illegal hframe]
      exact fun _ _ _ h => by cases h; exact ⟨rfl, rfl⟩
  | lzwbegin =>
    exact .after_check Done.raisesUnchanged_ite' (closedCheck_frame _ s) <|
      .after_check Done.raisesUnchanged_ite (depthCheck_frame _ s) (.of_ne beginBody_ne_raised)
  | lzwpix v =>
    exact .after_check Done.raisesUnchanged_ite (openCheck_frame _ s) fun _ _ _ h => (pixStep_raised h).2
  | lzwend =>
    exact .after_check Done.raisesUnchanged_ite (openCheck_frame _ s) <|
      .after_check Done.raisesUnchanged_ite' (emptyCheck_frame _ s) (.of_ne endBody_ne_raised)
  | lzwenc => exact absurd rfl hlzwenc

/-- `PINDEX` raises at its check, or `E_NOMATCH` in its scan. -/
theorem pindexBody_raised {w i : Word} {e : ErrCode} {s t : State} (h : pindexBody w s = .raised e i t) :
    (i = w ∧ t = s) ∨ e = .noMatch := by
  obtain h | ⟨u, -, h⟩ := Done.bind_eq_raised.1 h
  · exact .inl (Done.raisesUnchanged_ite e i t h)
  · exact .inr (forFrom_raised (fun _ _ _ _ _ => pindexPixel_raised) h)

/-- `LZWENC` raises at its checks, or `E_PIXRANGE` in its scan with the frame open. -/
theorem lzwencBody_raised {w i : Word} {e : ErrCode} {s t : State} (h : lzwencBody w s = .raised e i t) :
    (i = w ∧ t = s) ∨ (e = .pixRange ∧ t.active = true) := by
  by_cases hlegal : s.active = false ∧ s.DepthLegal ∧ s.FrameLegal ∧ s.RegionLegal
  case neg =>
    obtain ⟨e', he'⟩ := lzwencBody_illegal w hlegal
    cases he'.symm.trans h
    exact .inl ⟨rfl, rfl⟩
  obtain ⟨hclosed, hdepth, hframe, hregion⟩ := hlegal
  rw [lzwencBody_legal hclosed hdepth hframe hregion] at h
  obtain h | ⟨u, hu, h⟩ := Done.bind_eq_raised.1 h
  · exact absurd h (beginBody_ne_raised e i t)
  obtain h | ⟨v, -, h⟩ := Done.bind_eq_raised.1 h
  · have hopen := beginBody_active s
    have hkept := pixSteps_active s.scanItems u
    rw [hu] at hopen
    rw [h] at hkept
    exact .inr ⟨pixSteps_raised h, hkept.trans hopen⟩
  · exact absurd h (endBody_ne_raised e i t)

/-- Settles O39: a command that ends with a fault raised it; where, the three lemmas above say, and what its scan changed
until then is the frame of the command. -/
theorem faultsArePrecise : Obligations.FaultsArePrecise := by
  intro i s t hs h hfault
  rw [exec_eq_finish] at h
  have hframe := commandBody_frame i s
  obtain ⟨u, hu, rfl⟩ | ⟨e, info, u, hu, rfl⟩ := finish_eq_next.1 h
  · rw [hu] at hframe
    exact absurd ((UnitFrame.fault hframe).symm.trans hfault) (by simp [hs])
  by_cases hpindex : i = .pindex
  · subst hpindex
    obtain ⟨rfl, rfl⟩ | rfl := pindexBody_raised hu
    · exact .inl ⟨rfl, e.code_range⟩
    · have hidx := pindexBody_frame (encode .pindex) s
      rw [show pindexBody (encode .pindex) s = _ from hu, Done.satIfRuns_raised] at hidx
      refine .inr (.inl ⟨rfl, ?_⟩)
      rw [hidx]
      rfl
  by_cases hlzwenc : i = .lzwenc
  · subst hlzwenc
    obtain ⟨rfl, rfl⟩ | ⟨rfl, hopen⟩ := lzwencBody_raised hu
    · exact .inl ⟨rfl, e.code_range⟩
    · have hlzw := lzwencBody_lzwFrame (encode .lzwenc) s
      rw [show lzwencBody (encode .lzwenc) s = _ from hu] at hlzw
      obtain ⟨hsame, hout⟩ := hlzw
      refine .inr (.inr ⟨rfl, rfl, hopen, ?_, hout, ?_⟩)
      · rw [hsame]; rfl
      · unfold SameButLzw at *
        rw [hsame]
        rfl
  · obtain ⟨rfl, rfl⟩ := commandBody_raisesUnchanged hpindex hlzwenc s e info u hu
    exact .inl ⟨rfl, e.code_range⟩

end Sys2Proof.Machine
end

section
/-! The trie of an open frame holds the dictionary of the compressor over pixel strings (42_lzw_compressor.md sections 1 and
3): the simulation of one by the other, pixel by pixel. -/

namespace Sys2Proof.Machine

/-! ### Strings and their codes -/

/-- A string with a code: one pixel below `2^d`, or an entry of the dictionary (30_encoding.md R102). -/
def NodeString (d : Nat) (dict : List (List Byte)) (str : List Byte) : Prop :=
  (∃ v : Byte, str = [v] ∧ v.toNat < 2 ^ d) ∨ str ∈ dict

/-- The code of a string, whatever is matched. -/
def stringCode (d : Nat) (dict : List (List Byte)) (str : List Byte) : Nat :=
  StringLzw.codeOf d { matched := str, dict := dict, width := 0 }

theorem StringLzw.codeOf_eq (d : Nat) (z : StringLzw) : z.codeOf d = stringCode d z.dict z.matched := rfl

/-- What the dictionary of a frame always is: strings of two pixels or more, each once, each extending a string with a
code. -/
structure DictOk (d : Nat) (dict : List (List Byte)) : Prop where
  nodup : dict.Nodup
  long : ∀ str ∈ dict, 2 ≤ str.length
  parent : ∀ str ∈ dict, NodeString d dict str.dropLast

section
variable {d : Nat} {dict : List (List Byte)} {str : List Byte}

@[simp] theorem stringCode_singleton (v : Byte) : stringCode d dict [v] = v.toNat := rfl

theorem stringCode_of_long (h : 2 ≤ str.length) : stringCode d dict str = firstCode d + dict.idxOf str := by
  match str, h with
  | v :: w :: rest, _ => rfl

theorem NodeString.ne_nil (hok : DictOk d dict) (h : NodeString d dict str) : str ≠ [] := by
  obtain ⟨v, rfl, -⟩ | hmem := h
  · exact List.cons_ne_nil v []
  · exact List.ne_nil_of_length_pos (by have := hok.long str hmem; omega)

/-- Every code is below the next one to be assigned. -/
theorem NodeString.code_lt (hok : DictOk d dict) (h : NodeString d dict str) :
    stringCode d dict str < firstCode d + dict.length := by
  obtain ⟨v, rfl, hv⟩ | hmem := h
  · rw [stringCode_singleton, firstCode]
    omega
  · rw [stringCode_of_long (hok.long str hmem)]
    exact Nat.add_lt_add_left (List.idxOf_lt_length_of_mem hmem) _

/-- No two strings have one code. -/
theorem NodeString.code_inj {str' : List Byte} (hok : DictOk d dict) (h : NodeString d dict str)
    (h' : NodeString d dict str') (heq : stringCode d dict str = stringCode d dict str') : str = str' := by
  obtain ⟨v, rfl, hv⟩ | hmem := h <;> obtain ⟨v', rfl, hv'⟩ | hmem' := h'
  · rw [BitVec.eq_of_toNat_eq heq]
  · rw [stringCode_singleton, stringCode_of_long (hok.long _ hmem'), firstCode] at heq
    omega
  · rw [stringCode_singleton, stringCode_of_long (hok.long _ hmem), firstCode] at heq
    omega
  · rw [stringCode_of_long (hok.long _ hmem), stringCode_of_long (hok.long _ hmem')] at heq
    exact (List.idxOf_inj hmem).1 (Nat.add_left_cancel heq)

/-! ### One entry more -/

theorem NodeString.concat (h : NodeString d dict str) (x : List Byte) : NodeString d (dict ++ [x]) str :=
  h.imp_right (List.mem_append_left [x])

/-- The codes assigned before keep their strings. -/
theorem NodeString.code_concat (hok : DictOk d dict) (h : NodeString d dict str) (x : List Byte) :
    stringCode d (dict ++ [x]) str = stringCode d dict str := by
  obtain ⟨v, rfl, -⟩ | hmem := h
  · rfl
  · have hlong := hok.long str hmem
    rw [stringCode_of_long hlong, stringCode_of_long hlong, List.idxOf_append_of_mem hmem]

/-- The new string has the next code. -/
theorem stringCode_concat_self {x : List Byte} (hlong : 2 ≤ x.length) (hnew : x ∉ dict) :
    stringCode d (dict ++ [x]) x = firstCode d + dict.length := by
  rw [stringCode_of_long hlong, List.idxOf_append_of_notMem hnew, List.idxOf_cons_self, Nat.add_zero]

theorem DictOk.concat {m : List Byte} {v : Byte} (hok : DictOk d dict) (hm : NodeString d dict m)
    (hnew : m ++ [v] ∉ dict) : DictOk d (dict ++ [m ++ [v]]) := by
  have hlong : 2 ≤ (m ++ [v]).length := by
    have := List.length_pos_iff.2 (hm.ne_nil hok)
    rw [List.length_append, List.length_singleton]
    omega
  refine ⟨?_, fun str hstr => ?_, fun str hstr => ?_⟩
  · exact List.nodup_append.2 ⟨hok.nodup, List.nodup_singleton _, fun a ha b hb heq => hnew (by
      rw [← List.mem_singleton.1 hb, ← heq]; exact ha)⟩
  · rcases List.mem_append.1 hstr with hold | hself
    · exact hok.long str hold
    · rw [List.mem_singleton.1 hself]
      exact hlong
  · rcases List.mem_append.1 hstr with hold | hself
    · exact (hok.parent str hold).concat _
    · rw [List.mem_singleton.1 hself, List.dropLast_concat]
      exact hm.concat _

/-- The new string has no extension yet. -/
theorem DictOk.no_child {m : List Byte} {v : Byte} (hok : DictOk d dict) (hm : NodeString d dict m)
    (hnew : m ++ [v] ∉ dict) (u : Byte) : m ++ [v] ++ [u] ∉ dict ++ [m ++ [v]] := by
  intro hchild
  rcases List.mem_append.1 hchild with hold | hself
  · have hparent := hok.parent _ hold
    rw [List.dropLast_concat] at hparent
    obtain ⟨w, hw, -⟩ | hmem := hparent
    · have hlen := congrArg List.length hw
      have := List.length_pos_iff.2 (hm.ne_nil hok)
      simp only [List.length_append, List.length_singleton] at hlen
      omega
    · exact hnew hmem
  · have hlen := congrArg List.length (List.mem_singleton.1 hself)
    simp at hlen

end

/-! ### The simulation -/

/-- The registers and the trie of `s` hold the compressor `z` of depth `d`. -/
structure Tracks (d : Nat) (z : StringLzw) (s : State) : Prop where
  depth : 1 ≤ d ∧ d ≤ 8
  lzwD : s.lzwD.toNat = d
  dictOk : DictOk d z.dict
  width : s.codeWidth.toNat = z.width
  widthLe : d + 1 ≤ z.width ∧ z.width ≤ 12
  next : s.nextCode.toNat = firstCode d + z.dict.length
  nextLe : firstCode d + z.dict.length ≤ 2 ^ z.width
  root : z.matched = [] → s.cur = rootCur
  node : z.matched ≠ [] → NodeString d z.dict z.matched ∧ s.cur.toNat = stringCode d z.dict z.matched
  children : ∀ str u, NodeString d z.dict str → s.readTrie (stringCode d z.dict str) u =
    if str ++ [u] ∈ z.dict then some (BitVec.ofNat 12 (stringCode d z.dict (str ++ [u]))) else none
  fresh : ∀ c u, firstCode d + z.dict.length ≤ c → s.readTrie c u = none

/-- Nothing else of the state matters. -/
theorem Tracks.congr {d : Nat} {z : StringLzw} {s t : State} (h : Tracks d z s) (hlzwD : t.lzwD = s.lzwD)
    (hwidth : t.codeWidth = s.codeWidth) (hnext : t.nextCode = s.nextCode) (hcur : t.cur = s.cur)
    (htrie : t.trie = s.trie) : Tracks d z t := by
  have hread : t.readTrie = s.readTrie := by
    unfold State.readTrie
    rw [htrie]
  refine ⟨h.depth, hlzwD ▸ h.lzwD, h.dictOk, hwidth ▸ h.width, h.widthLe, hnext ▸ h.next, h.nextLe, ?_, ?_, ?_, ?_⟩
  · rw [hcur]; exact h.root
  · rw [hcur]; exact h.node
  · rw [hread]; exact h.children
  · rw [hread]; exact h.fresh

theorem Tracks.of_packer {d : Nat} {z : StringLzw} {s t : State} (h : Tracks d z s) (hst : SameButPacker s t) :
    Tracks d z t := by
  rw [hst]
  exact h.congr rfl rfl rfl rfl rfl

/-- A trie begun anew holds a fresh compressor. -/
theorem tracks_fresh {d : Nat} {s : State} (hd : 1 ≤ d ∧ d ≤ 8) (hlzwD : s.lzwD.toNat = d) :
    Tracks d (.fresh d) s.trieReset.curRoot where
  depth := hd
  lzwD := hlzwD
  dictOk := ⟨List.nodup_nil, fun _ hs => absurd hs List.not_mem_nil, fun _ hs => absurd hs List.not_mem_nil⟩
  width := hlzwD ▸ State.toNat_trieReset_codeWidth (by omega)
  widthLe := ⟨le_rfl, show d + 1 ≤ 12 by omega⟩
  next := hlzwD ▸ State.toNat_trieReset_nextCode (by omega)
  nextLe := by
    have hpow : 2 ^ 1 ≤ 2 ^ d := Nat.pow_le_pow_right (by omega) hd.1
    simp only [StringLzw.fresh, List.length_nil, firstCode, Nat.pow_succ]
    omega
  root := fun _ => rfl
  node := fun hm => absurd rfl hm
  children := fun _ _ _ => (if_neg List.not_mem_nil).symm
  fresh := fun _ _ _ => rfl

section
variable {d : Nat} {z : StringLzw} {s : State} (h : Tracks d z s)
include h

theorem Tracks.codesFit (hroom : s.bufCnt.toNat ≤ 254) : s.CodesFit := by
  have hlow := h.widthLe
  have hnext := h.nextLe
  have hwidth := h.width
  refine ⟨by omega, by omega, ?_, ?_, hroom⟩
  · rw [h.lzwD, hwidth, stopCode]
    rw [firstCode] at hnext
    omega
  · by_cases hm : z.matched = []
    · exact .inl (h.root hm)
    · obtain ⟨hnode, hcur⟩ := h.node hm
      have hlt := hnode.code_lt h.dictOk
      rw [hcur, hwidth]
      exact .inr (by omega)

theorem Tracks.next_le : firstCode d + z.dict.length ≤ 4096 :=
  h.nextLe.trans (Nat.pow_le_pow_right (by omega) h.widthLe.2)

/-- At the root nothing is matched, elsewhere something. -/
theorem Tracks.root_iff : s.cur = rootCur ↔ z.matched = [] := by
  refine ⟨fun hroot => ?_, h.root⟩
  by_contra hm
  obtain ⟨hnode, hcur⟩ := h.node hm
  have hlt := hnode.code_lt h.dictOk
  have hle := h.next_le
  rw [hroot, show rootCur.toNat = 4096 by decide] at hcur
  omega

/-- The child of the current node is the longer match. -/
theorem Tracks.child (hm : z.matched ≠ []) (v : Byte) : s.readTrie s.cur.toNat v =
    if z.matched ++ [v] ∈ z.dict then some (BitVec.ofNat 12 (stringCode d z.dict (z.matched ++ [v]))) else none := by
  obtain ⟨hnode, hcur⟩ := h.node hm
  rw [hcur]
  exact h.children _ v hnode

variable {v : Byte} (hv : v.toNat < 2 ^ d)

include hv in
theorem Tracks.curBase : Tracks d { z with matched := [v] } (s.curBase v) where
  depth := h.depth
  lzwD := h.lzwD
  dictOk := h.dictOk
  width := h.width
  widthLe := h.widthLe
  next := h.next
  nextLe := h.nextLe
  root := fun hm => absurd hm (List.cons_ne_nil v [])
  node := fun _ => ⟨.inl ⟨v, rfl, hv⟩, State.curBase_toNat v⟩
  children := h.children
  fresh := h.fresh

theorem Tracks.curCode (hmem : z.matched ++ [v] ∈ z.dict) :
    Tracks d { z with matched := z.matched ++ [v] } (s.curCode (BitVec.ofNat 12 (stringCode d z.dict (z.matched ++ [v])))) where
  depth := h.depth
  lzwD := h.lzwD
  dictOk := h.dictOk
  width := h.width
  widthLe := h.widthLe
  next := h.next
  nextLe := h.nextLe
  root := fun hm => absurd hm (List.append_ne_nil_of_right_ne_nil _ (List.cons_ne_nil v []))
  node := fun _ => by
    have hnode : NodeString d z.dict (z.matched ++ [v]) := .inr hmem
    have hlt := hnode.code_lt h.dictOk
    have hle := h.next_le
    refine ⟨hnode, ?_⟩
    rw [State.curCode_toNat, BitVec.toNat_ofNat, Nat.mod_eq_of_lt (by omega)]
  children := h.children
  fresh := h.fresh

/-- The new entry is the longer string, under the current node. -/
theorem Tracks.attach_children (hm : z.matched ≠ []) (hnew : z.matched ++ [v] ∉ z.dict) (str : List Byte) (u : Byte)
    (hstr : NodeString d (z.dict ++ [z.matched ++ [v]]) str) :
    (s.attach v).readTrie (stringCode d (z.dict ++ [z.matched ++ [v]]) str) u =
      if str ++ [u] ∈ z.dict ++ [z.matched ++ [v]] then
        some (BitVec.ofNat 12 (stringCode d (z.dict ++ [z.matched ++ [v]]) (str ++ [u])))
      else none := by
  obtain ⟨hnode, hcur⟩ := h.node hm
  have hlong : 2 ≤ (z.matched ++ [v]).length := by
    have := List.length_pos_iff.2 hm
    rw [List.length_append, List.length_singleton]
    omega
  have hself := stringCode_concat_self (d := d) hlong hnew
  rw [State.readTrie_attach, hcur]
  by_cases hold : NodeString d z.dict str
  · rw [hold.code_concat h.dictOk]
    by_cases hhere : stringCode d z.dict z.matched = stringCode d z.dict str ∧ v = u
    · obtain ⟨hcode, rfl⟩ := hhere
      obtain rfl := hnode.code_inj h.dictOk hold hcode
      rw [if_pos ⟨rfl, rfl⟩, if_pos (List.mem_append_right _ (List.mem_singleton.2 rfl)), hself, h.next]
    · rw [if_neg hhere, h.children str u hold]
      by_cases hchild : str ++ [u] ∈ z.dict
      · rw [if_pos hchild, if_pos (List.mem_append_left _ hchild),
          NodeString.code_concat h.dictOk (.inr hchild)]
      · rw [if_neg hchild, if_neg]
        intro hmem
        rcases List.mem_append.1 hmem with hmem | hmem
        · exact hchild hmem
        · obtain ⟨rfl, hu⟩ := List.append_inj' (List.mem_singleton.1 hmem) rfl
          exact hhere ⟨rfl, (List.singleton_inj.1 hu).symm⟩
  · obtain rfl : str = z.matched ++ [v] := by
      rcases hstr with hsingle | hmem
      · exact absurd (.inl hsingle) hold
      · rcases List.mem_append.1 hmem with hmem | hmem
        · exact absurd (.inr hmem) hold
        · exact List.mem_singleton.1 hmem
    have hlt := hnode.code_lt h.dictOk
    rw [hself, if_neg (by omega), h.fresh _ u le_rfl, if_neg (h.dictOk.no_child hnode hnew u)]

include hv in
/-- A miss with the table not full. -/
theorem Tracks.attach (hm : z.matched ≠ []) (hnew : z.matched ++ [v] ∉ z.dict) (hnext : s.nextCode.toNat < 4096) :
    Tracks d { matched := [v], dict := z.dict ++ [z.matched ++ [v]]
               width := if firstCode d + z.dict.length = 2 ^ z.width then z.width + 1 else z.width }
      ((s.attach v).curBase v) := by
  obtain ⟨hnode, hcur⟩ := h.node hm
  have hlt := hnode.code_lt h.dictOk
  have hwidth := State.toNat_attach_codeWidth v (s := s) (by rw [h.width]; exact h.widthLe.2)
  have hnextCode := State.toNat_attach_nextCode v hnext
  rw [h.width, h.next] at hwidth
  rw [h.next] at hnextCode hnext
  have hbounds : (d + 1 ≤ (s.attach v).codeWidth.toNat ∧ (s.attach v).codeWidth.toNat ≤ 12)
      ∧ firstCode d + z.dict.length + 1 ≤ 2 ^ (s.attach v).codeWidth.toNat := by
    obtain ⟨hlow, hhigh⟩ := h.widthLe
    rw [hwidth]
    rcases Nat.lt_or_eq_of_le h.nextLe with hroom | hfull
    · rw [if_neg hroom.ne]
      exact ⟨⟨hlow, hhigh⟩, hroom⟩
    · have hpow : 2 ^ z.width < 2 ^ 12 := by omega
      have hw : z.width < 12 := (Nat.pow_lt_pow_iff_right (by omega)).1 hpow
      have hpos := Nat.two_pow_pos z.width
      rw [if_pos hfull, Nat.pow_succ]
      omega
  rw [hwidth] at hbounds
  exact {
    depth := h.depth
    lzwD := h.lzwD
    dictOk := h.dictOk.concat hnode hnew
    width := hwidth
    widthLe := hbounds.1
    next := by rw [List.length_append, List.length_singleton]; exact hnextCode
    nextLe := by rw [List.length_append, List.length_singleton]; exact hbounds.2
    root := fun hnil => absurd hnil (List.cons_ne_nil v [])
    node := fun _ => ⟨.inl ⟨v, rfl, hv⟩, State.curBase_toNat v⟩
    children := h.attach_children hm hnew
    fresh := fun c u hc => by
      rw [List.length_append, List.length_singleton] at hc
      show (s.attach v).readTrie c u = none
      rw [State.readTrie_attach, if_neg (by omega), h.fresh c u (by omega)] }

end

/-! ### One pixel and all of them -/

section
variable {d : Nat} {z : StringLzw} {v : Byte}

theorem StringLzw.feed_first (hm : z.matched = []) : z.feed d v = ([], { z with matched := [v] }) := if_pos hm

theorem StringLzw.feed_extend (hm : z.matched ≠ []) (hmem : z.matched ++ [v] ∈ z.dict) :
    z.feed d v = ([], { z with matched := z.matched ++ [v] }) := by
  rw [StringLzw.feed, if_neg hm, if_pos hmem]

theorem StringLzw.feed_insert (hm : z.matched ≠ []) (hnew : z.matched ++ [v] ∉ z.dict)
    (hroom : firstCode d + z.dict.length < maxCodes) :
    z.feed d v = ([(z.codeOf d, z.width)],
      { matched := [v], dict := z.dict ++ [z.matched ++ [v]]
        width := if firstCode d + z.dict.length = 2 ^ z.width then z.width + 1 else z.width }) := by
  rw [StringLzw.feed, if_neg hm, if_neg hnew, if_pos hroom]

theorem StringLzw.feed_rebuild (hm : z.matched ≠ []) (hnew : z.matched ++ [v] ∉ z.dict)
    (hfull : maxCodes ≤ firstCode d + z.dict.length) :
    z.feed d v = ([(z.codeOf d, z.width), (clearCode d, z.width)], { matched := [v], dict := [], width := d + 1 }) := by
  rw [StringLzw.feed, if_neg hm, if_neg hnew, if_neg (Nat.not_lt.2 hfull)]

end

@[simp] theorem bitsOfCodes_nil : bitsOfCodes [] = [] := rfl

theorem bitsOfCodes_cons (c : Nat × Nat) (cs : List (Nat × Nat)) :
    bitsOfCodes (c :: cs) = lowBits c.2 c.1 ++ bitsOfCodes cs := rfl

theorem bitsOfCodes_append (cs cs' : List (Nat × Nat)) : bitsOfCodes (cs ++ cs') = bitsOfCodes cs ++ bitsOfCodes cs' :=
  List.flatMap_append

/-- One pixel: the machine goes on as the compressor over strings does, and emits its codes. -/
theorem Tracks.feed {d : Nat} {z : StringLzw} {s t : State} {v : Byte} (h : Tracks d z s) (hv : v.toNat < 2 ^ d)
    (hroom : s.bufCnt.toNat ≤ 254) (hpix : PixOutcome v s t) :
    Tracks d (z.feed d v).2 t ∧ Emitted s t (bitsOfCodes (z.feed d v).1) := by
  have hnomem : z.matched ≠ [] → s.readTrie s.cur.toNat v = none → z.matched ++ [v] ∉ z.dict := fun hm hmiss hmem => by
    rw [h.child hm, if_pos hmem] at hmiss
    cases hmiss
  have hcode : z.matched ≠ [] → lowBits s.codeWidth.toNat s.cur.toNat = lowBits z.width (z.codeOf d) := fun hm => by
    rw [h.width, (h.node hm).2, z.codeOf_eq]
  cases hpix with
  | first hroot ht =>
    rw [StringLzw.feed_first (h.root_iff.1 hroot), ht]
    exact ⟨h.curBase hv, hroom, .refl, id⟩
  | extend c hroot hchild ht =>
    have hm : z.matched ≠ [] := fun hm => hroot (h.root hm)
    rw [h.child hm] at hchild
    by_cases hmem : z.matched ++ [v] ∈ z.dict
    · rw [if_pos hmem] at hchild
      rw [StringLzw.feed_extend hm hmem, ht, ← Option.some.inj hchild]
      exact ⟨h.curCode hmem, hroom, .refl, id⟩
    · rw [if_neg hmem] at hchild
      cases hchild
  | insert hroot hmiss hnext hsame hemit =>
    have hm : z.matched ≠ [] := fun hm => hroot (h.root hm)
    have hnew := hnomem hm hmiss
    rw [StringLzw.feed_insert hm hnew (h.next ▸ hnext), bitsOfCodes_cons, bitsOfCodes_nil, List.append_nil, ← hcode hm]
    exact ⟨(h.attach hv hm hnew hnext).of_packer hsame, hemit⟩
  | rebuild hroot hmiss hnext hsame hemit =>
    have hm : z.matched ≠ [] := fun hm => hroot (h.root hm)
    have hclear : lowBits s.codeWidth.toNat (2 ^ s.lzwD.toNat) = lowBits z.width (clearCode d) := by
      rw [h.width, h.lzwD, clearCode]
    rw [StringLzw.feed_rebuild hm (hnomem hm hmiss) (h.next ▸ hnext), bitsOfCodes_cons, bitsOfCodes_cons,
      bitsOfCodes_nil, List.append_nil, ← hcode hm, ← hclear]
    exact ⟨((tracks_fresh h.depth h.lzwD).curBase hv).of_packer hsame, hemit⟩

/-- All pixels of a frame, if they are in range. -/
theorem Tracks.feedAll {d : Nat} {z : StringLzw} {s : State} (h : Tracks d z s) (hroom : s.bufCnt.toNat ≤ 254)
    {ps : List (Byte × Word)} (hps : ∀ p ∈ ps, p.1.toNat < 2 ^ d) :
    ∃ t, pixSteps ps s = .ok t ∧ Tracks d (z.feedAll d (ps.map Prod.fst)).2 t
      ∧ Emitted s t (bitsOfCodes (z.feedAll d (ps.map Prod.fst)).1) := by
  induction ps generalizing z s with
  | nil => exact ⟨s, rfl, h, .nothing hroom⟩
  | cons p ps ih =>
    have hp := hps p List.mem_cons_self
    obtain ⟨u, hu, hpix⟩ := pixStep_outcome (by rw [h.lzwD]; exact hp) (h.codesFit hroom) p.2
    obtain ⟨htracks, hemit⟩ := h.feed hp hroom hpix
    obtain ⟨t, ht, hdone, hrest⟩ := ih htracks hemit.room fun q hq => hps q (List.mem_cons_of_mem _ hq)
    refine ⟨t, by rw [pixSteps_cons, hu, Done.ok_bind, ht], hdone, ?_⟩
    rw [List.map_cons, StringLzw.feedAll, bitsOfCodes_append]
    exact hemit.trans hrest

end Sys2Proof.Machine
end

section
/-! The output of `LZWENC` is the image data of the codes of its region (42_lzw_compressor.md section 5; 43_code_packer.md
section 5). -/

namespace Sys2Proof.Machine

/-! ### Image data -/

/-- As `Takes.imageOfBits`, with more bits still to come. -/
theorem Takes.imageOfBits_append {s t : State} {bits more : List Bool} {tail : List Byte} (h : Takes s t bits)
    (htail : ImageOfBits (t.heldBits ++ more) tail) :
    ∃ tail', t.out ++ tail = s.out ++ tail' ∧ ImageOfBits (s.heldBits ++ bits ++ more) tail' := by
  obtain ⟨blocks, hlen, hout, hheld, -⟩ := h
  obtain ⟨data, pad, hpad, hbits, hdata⟩ := htail
  refine ⟨_, by rw [hout, List.append_assoc], _, pad, hpad, ?_, hdata.full_blocks hlen⟩
  rw [bitsOfBytes_append, hbits, ← hheld, List.append_assoc, List.append_assoc, List.append_assoc]

/-- A length byte for each sub-block, and the terminator (43_code_packer.md R177). -/
theorem ImageData.length_eq {data out : List Byte} (h : ImageData data out) :
    out.length = data.length + (data.length + 254) / 255 + 1 := by
  induction h with
  | terminator => rfl
  | short d h1 h2 =>
    simp only [List.length_cons, List.length_append, List.length_nil]
    omega
  | full b rest out h _ ih =>
    simp only [List.length_cons, List.length_append, ih, h]
    omega

theorem ImageData.of_short {data out : List Byte} (h : ImageData data out) (hshort : data.length < 255) :
    out = if data = [] then [0x00#8] else BitVec.ofNat 8 data.length :: data ++ [0x00#8] := by
  cases h with
  | terminator => rfl
  | short d h1 h2 => rw [if_neg (List.ne_nil_of_length_pos h1)]
  | full b rest out hb _ =>
    rw [List.length_append] at hshort
    omega

theorem ImageData.of_full {b rest out : List Byte} (hb : b.length = 255) (h : ImageData (b ++ rest) out) :
    ∃ out', out = 0xFF#8 :: b ++ out' ∧ ImageData rest out' := by
  generalize hdata : b ++ rest = data at h
  have hlen : data.length = 255 + rest.length := by rw [← hdata, List.length_append, hb]
  cases h with
  | terminator => rw [List.length_nil] at hlen; omega
  | short d h1 h2 => omega
  | full b' rest' out' hb' hrest =>
    obtain ⟨rfl, rfl⟩ := List.append_inj hdata (hb.trans hb'.symm)
    exact ⟨out', rfl, hrest⟩

/-- The data bytes determine their image data. -/
theorem ImageData.unique {data out out' : List Byte} (h : ImageData data out) (h' : ImageData data out') : out = out' := by
  induction h generalizing out' with
  | terminator => exact (h'.of_short (by decide)).symm
  | short d h1 h2 => rw [h'.of_short (by omega), if_neg (List.ne_nil_of_length_pos h1)]
  | full b rest out hb _ ih =>
    obtain ⟨rest', rfl, hrest⟩ := h'.of_full hb
    rw [ih hrest]

theorem lowBits_toNat_inj {b c : Byte} (h : lowBits 8 b.toNat = lowBits 8 c.toNat) : b = c :=
  BitVec.eq_of_getLsbD_eq fun i hi => List.map_inj_left.1 h i (List.mem_range.2 hi)

theorem bitsOfBytes_inj {xs ys : List Byte} (h : bitsOfBytes xs = bitsOfBytes ys) : xs = ys := by
  induction xs generalizing ys with
  | nil =>
    have hlen := congrArg List.length h
    rw [length_bitsOfBytes, length_bitsOfBytes, List.length_nil] at hlen
    exact (List.eq_nil_of_length_eq_zero (by omega)).symm
  | cons x xs ih =>
    cases ys with
    | nil =>
      have hlen := congrArg List.length h
      rw [length_bitsOfBytes, length_bitsOfBytes, List.length_nil, List.length_cons] at hlen
      omega
    | cons y ys =>
      obtain ⟨hxy, hrest⟩ := List.append_inj h (by rw [length_lowBits, length_lowBits])
      rw [lowBits_toNat_inj hxy, ih hrest]

/-- So many data bytes, so many bits of padding. -/
theorem length_of_padded {bits : List Bool} {data : List Byte} {pad : Nat} (hpad : pad < 8)
    (h : bitsOfBytes data = bits ++ List.replicate pad false) :
    data.length = (bits.length + 7) / 8 ∧ pad = 8 * data.length - bits.length := by
  have hlen := congrArg List.length h
  rw [length_bitsOfBytes, List.length_append, List.length_replicate] at hlen
  omega

theorem ImageOfBits.length_eq {bits : List Bool} {out : List Byte} (h : ImageOfBits bits out) :
    out.length = (bits.length + 7) / 8 + ((bits.length + 7) / 8 + 254) / 255 + 1 := by
  obtain ⟨data, pad, hpad, hbits, hdata⟩ := h
  rw [hdata.length_eq, (length_of_padded hpad hbits).1]

/-- The bits determine their image data. -/
theorem ImageOfBits.unique {bits : List Bool} {out out' : List Byte} (h : ImageOfBits bits out)
    (h' : ImageOfBits bits out') : out = out' := by
  obtain ⟨data, pad, hpad, hbits, hdata⟩ := h
  obtain ⟨data', pad', hpad', hbits', hdata'⟩ := h'
  obtain ⟨hlen, hpadEq⟩ := length_of_padded hpad hbits
  obtain ⟨hlen', hpadEq'⟩ := length_of_padded hpad' hbits'
  rw [hpadEq, hlen, ← hlen', ← hpadEq', ← hbits'] at hbits
  obtain rfl := bitsOfBytes_inj hbits
  exact hdata.unique hdata'

/-! ### The codes of a frame -/

theorem length_bitsOfCodes (cs : List (Nat × Nat)) : (bitsOfCodes cs).length = (cs.map Prod.snd).sum := by
  simp [bitsOfCodes, List.length_flatMap]

theorem StringLzw.width_feed_pos {d : Nat} {z : StringLzw} (h : 0 < z.width) (v : Byte) : 0 < (z.feed d v).2.width := by
  unfold StringLzw.feed
  split
  · exact h
  · split
    · exact h
    · split
      · dsimp only
        split <;> omega
      · exact Nat.succ_pos d

theorem StringLzw.width_feedAll_pos {d : Nat} {z : StringLzw} (h : 0 < z.width) (vs : List Byte) :
    0 < (z.feedAll d vs).2.width := by
  induction vs generalizing z with
  | nil => exact h
  | cons v vs ih => exact ih (z.width_feed_pos h v)

/-- The stop code alone has some width. -/
theorem frameCodes_width_pos (leadingClear : Bool) (d : Nat) (pixels : List Byte) :
    0 < ((frameCodes leadingClear d pixels).map Prod.snd).sum := by
  have hpos := (StringLzw.fresh d).width_feedAll_pos (d := d) (Nat.succ_pos d) pixels
  unfold frameCodes
  rw [List.map_append, List.sum_append]
  simp only [List.map_cons, List.map_nil, List.sum_cons, List.sum_nil]
  omega

/-- The codes of a frame as the machine emits them: the leading clear code, those of the pixels, the last two. -/
theorem bitsOfCodes_frameCodes (leadingClear : Bool) (d : Nat) (pixels : List Byte) :
    bitsOfCodes (frameCodes leadingClear d pixels)
      = (if leadingClear then lowBits (d + 1) (2 ^ d) else []) ++ bitsOfCodes ((StringLzw.fresh d).feedAll d pixels).1
        ++ lowBits ((StringLzw.fresh d).feedAll d pixels).2.width (((StringLzw.fresh d).feedAll d pixels).2.codeOf d)
        ++ lowBits ((StringLzw.fresh d).feedAll d pixels).2.width (stopCode d) := by
  unfold frameCodes
  rw [bitsOfCodes_append, bitsOfCodes_append, bitsOfCodes_cons, bitsOfCodes_cons, bitsOfCodes_nil, List.append_nil,
    ← List.append_assoc]
  cases leadingClear with
  | false => rfl
  | true => rw [if_pos rfl, if_pos rfl, bitsOfCodes_cons, bitsOfCodes_nil, List.append_nil, clearCode]

/-! ### The frame of a region -/

theorem Tracks.beginFrame {s : State} (h : s.DepthLegal) :
    Tracks s.regs.depth.toNat (.fresh s.regs.depth.toNat) s.beginFrame :=
  (tracks_fresh (s := { s with lzwD := BitVec.ofNat 4 s.regs.depth.toNat }) h (State.toNat_beginFrame_lzwD h)).congr
    rfl rfl rfl rfl rfl

/-- The bits of a frame after its leading clear code and the pixels `pixels`. -/
def State.openBits (s : State) (pixels : List Byte) : List Bool :=
  (if s.params.leadingClear then lowBits (s.regs.depth.toNat + 1) (2 ^ s.regs.depth.toNat) else [])
    ++ bitsOfCodes ((StringLzw.fresh s.regs.depth.toNat).feedAll s.regs.depth.toNat pixels).1

/-- A frame begun and fed pixels in range holds the compressor over strings fed the same pixels. -/
theorem openFrame_tracks {s : State} (hdepth : s.DepthLegal) (hroom : s.bufCnt.toNat ≤ 254) {ps : List (Byte × Word)}
    (hps : ∀ p ∈ ps, p.1.toNat < 2 ^ s.regs.depth.toNat) :
    ∃ u v, beginBody s = .ok u ∧ pixSteps ps u = .ok v ∧ LzwFrame s v ∧ v.active = true
      ∧ Tracks s.regs.depth.toNat
          ((StringLzw.fresh s.regs.depth.toNat).feedAll s.regs.depth.toNat (ps.map Prod.fst)).2 v
      ∧ Emitted s v (s.openBits (ps.map Prod.fst)) := by
  obtain ⟨u, hu, husame, huemit⟩ := beginBody_emitted hdepth hroom
  obtain ⟨v, hv, htracks, hvemit⟩ := ((Tracks.beginFrame hdepth).of_packer husame).feedAll huemit.room hps
  have hbegin := beginBody_lzwFrame s
  have hopen := beginBody_active s
  have hpix := pixSteps_lzwFrame ps u
  have hstill := pixSteps_active ps u
  rw [hu] at hbegin hopen
  rw [hv] at hpix hstill
  exact ⟨u, v, hu, hv, LzwFrame.trans hbegin hpix, hstill.trans hopen, htracks, huemit.trans hvemit⟩

theorem State.map_fst_scanItems (s : State) : s.scanItems.map Prod.fst = s.regionPixels := by
  rw [State.scanItems, List.map_map]
  rfl

theorem State.scanItems_inRange {s : State} (h : ∀ v ∈ s.regionPixels, v.toNat < 2 ^ s.regs.depth.toNat) :
    ∀ p ∈ s.scanItems, p.1.toNat < 2 ^ s.regs.depth.toNat := fun p hp =>
  h p.1 (s.map_fst_scanItems ▸ List.mem_map_of_mem hp)

/-- An empty packer holds no bits. -/
theorem State.heldBits_of_empty {s : State} (hnbits : s.nbits = 0#3) (hcnt : s.bufCnt = 0#8) : s.heldBits = [] := by
  simp [State.heldBits, State.bufBytes, bitsOfBytes, hnbits, hcnt]

/-- Settles O33: the frame is begun and fed the region (`openFrame_tracks`), then `endBody_ok` ends the image data. -/
theorem lzwencOutputIsFramedLzwStream : Obligations.LzwencOutputIsFramedLzwStream := by
  intro s hclosed hdepth hframe hregion hnbits hpartial hcnt hpixels
  obtain ⟨u, v, hu, hv, hvframe, -, htracks, hemit⟩ :=
    openFrame_tracks hdepth (by simp [hcnt]) (s.scanItems_inRange hpixels)
  rw [s.map_fst_scanItems] at htracks hemit
  have htakes := hemit.takes (by simp [State.PackerOk, hnbits, hpartial, hcnt])
  have hcur := pixSteps_cur_lt (s.scanItems_ne_nil hregion) hv
  have hroot : v.cur ≠ rootCur := fun h => absurd hcur (by rw [h]; decide)
  obtain ⟨-, hcode⟩ := htracks.node fun hm => hroot (htracks.root hm)
  have hfit := htracks.codesFit hemit.room
  obtain ⟨t, tail, ht, htsame, himage⟩ :=
    endBody_ok (hfit.cur_lt hroot).1 hfit.widthPos hfit.widthLe hfit.stopFits htakes.packerOk
  rw [List.append_assoc] at himage
  obtain ⟨tail', hout, himage'⟩ := htakes.imageOfBits_append himage
  refine ⟨{ t with pc := t.pc + 1#32 }, tail', ?_, ?_, ?_, ?_⟩
  · rw [exec_eq_finish, commandBody, lzwencBody_legal hclosed hdepth hframe hregion, hu, Done.ok_bind, hv, Done.ok_bind,
      ht, finish_ok]
  · obtain ⟨hsame, -⟩ := hvframe
    rw [hout, hsame] at htsame
    rw [htsame]
    rfl
  · rw [← htracks.lzwD, htsame]
  · rwa [State.heldBits_of_empty hnbits hcnt, List.nil_append, htracks.width, htracks.lzwD, hcode, ← StringLzw.codeOf_eq,
      State.openBits, ← List.append_assoc, ← bitsOfCodes_frameCodes] at himage'

/-- Settles O34: the length of the image data of that many bits. -/
theorem lzwencOutputLength : Obligations.LzwencOutputLength := by
  intro s t hclosed hdepth hframe hregion hnbits hpartial hcnt hpixels ht
  obtain ⟨t', tail, ht', hsame, -, himage⟩ :=
    lzwencOutputIsFramedLzwStream s hclosed hdepth hframe hregion hnbits hpartial hcnt hpixels
  rw [ht] at ht'
  cases ht'
  have hpos := frameCodes_width_pos s.params.leadingClear s.regs.depth.toNat s.regionPixels
  refine ⟨_, _, rfl, rfl, by omega, ?_⟩
  rw [hsame, List.length_append, himage.length_eq, length_bitsOfCodes]
  omega

/-- Settles O37: both tails are the image data of the same bits. -/
theorem lzwencOutputIsDeterminedByPixels : Obligations.LzwencOutputIsDeterminedByPixels := by
  intro s s' hlegal hclear hdepth hpixels
  have hencode : ∀ z ∈ [s, s'], ∃ (t : State) (tail : List Byte), exec .lzwenc z = .next t ∧ t.out = z.out ++ tail
      ∧ ImageOfBits (bitsOfCodes (frameCodes z.params.leadingClear z.regs.depth.toNat z.regionPixels)) tail := by
    intro z hz
    obtain ⟨hactive, hd, hframe, hregion, hnbits, hpartial, hcnt, hrange⟩ := hlegal z hz
    obtain ⟨t, tail, ht, hsame, -, himage⟩ :=
      lzwencOutputIsFramedLzwStream z hactive hd hframe hregion hnbits hpartial hcnt hrange
    exact ⟨t, tail, ht, by rw [hsame], himage⟩
  obtain ⟨t, tail, ht, hout, himage⟩ := hencode s (by simp)
  obtain ⟨t', tail', ht', hout', himage'⟩ := hencode s' (by simp)
  rw [← hclear, ← hdepth, ← hpixels] at himage'
  exact ⟨t, t', tail, ht, ht', hout, himage.unique himage' ▸ hout'⟩

end Sys2Proof.Machine
end

section
/-! `LZWENC` against the command sequence `LZWBEGIN`, one `LZWPIX` per pixel, `LZWEND` (42_lzw_compressor.md section 5). -/

namespace Sys2Proof.Machine

/-! ### Commands from anywhere in the program -/

/-- The same state at another place of the program. -/
def State.atPc (s : State) (n : BitVec 32) : State := { s with pc := n }

@[simp] theorem State.atPc_atPc (s : State) (m n : BitVec 32) : (s.atPc m).atPc n = s.atPc n := rfl

@[simp] theorem State.atPc_self (s : State) : s.atPc s.pc = s := rfl

/-- A body that does not read `PC` ends in the same state wherever it runs. -/
theorem CycleBlind.ok_atPc {body : State → Done} (hb : CycleBlind body) {s t : State} (h : body s = .ok t)
    (n : BitVec 32) : body (s.atPc n) = .ok (t.atPc n) := by
  have hcycle := hb s id fun _ => n
  rw [h] at hcycle
  exact hcycle

theorem runCommands_append {is : List Instr} {s u : State} (h : runCommands is s = .next u) (hfault : u.fault = false)
    (js : List Instr) : runCommands (is ++ js) s = runCommands js u := by
  induction is generalizing s with
  | nil => cases h; rfl
  | cons i is ih =>
    rw [List.cons_append]
    cases hexec : exec i s with
    | next t =>
      cases htf : t.fault with
      | false =>
        rw [runCommands_cons hexec htf] at h ⊢
        exact ih h
      | true =>
        simp only [runCommands, hexec, htf, if_true] at h
        cases h
        rw [htf] at hfault
        cases hfault
    | fault r => simp [runCommands, hexec] at h
    | refused r => simp [runCommands, hexec] at h

/-- A command that takes a fault is the last one. -/
theorem runCommands_fault {i : Instr} {s t : State} (h : exec i s = .next t) (hfault : t.fault = true) (is : List Instr) :
    runCommands (i :: is) s = .next t := by
  simp [runCommands, h, hfault]

/-! ### Streamed pixels -/

/-- Only a fault records the word a pixel came with. -/
theorem pixStep_ok_info {v : Byte} {info : Word} {s t : State} (h : pixStep v info s = .ok t) (info' : Word) :
    pixStep v info' s = .ok t := by
  by_cases hrange : 2 ^ s.lzwD.toNat ≤ v.toNat
  · rw [pixStep_range hrange] at h
    cases h
  · unfold pixStep at h ⊢
    rwa [if_neg hrange] at h ⊢

theorem exec_lzwpix_ok {v : Byte} {info : Word} {s t : State} (hopen : s.active = true) (h : pixStep v info s = .ok t)
    (n : BitVec 32) : exec (.lzwpix v) (s.atPc n) = .next (t.atPc (n + 1#32)) := by
  rw [exec_lzwpix_open (s := s.atPc n) hopen, (pixStep_blind v _).ok_atPc (pixStep_ok_info h _), finish_ok]
  rfl

/-- What no part of a frame changes. -/
theorem LzwFrame.fault {s t : State} (h : LzwFrame s t) : t.fault = s.fault := by
  obtain ⟨hsame, -⟩ := h
  rw [hsame]

theorem LzwFrame.pc {s t : State} (h : LzwFrame s t) : t.pc = s.pc := by
  obtain ⟨hsame, -⟩ := h
  rw [hsame]

/-- The pixels of a scan as commands. -/
def pixCommands (ps : List (Byte × Word)) : List Instr := ps.map fun p => .lzwpix p.1

theorem runCommands_pixCommands {ps : List (Byte × Word)} {s t : State} (hopen : s.active = true)
    (hfault : s.fault = false) (h : pixSteps ps s = .ok t) (n : BitVec 32) :
    runCommands (pixCommands ps) (s.atPc n) = .next (t.atPc (n + BitVec.ofNat 32 ps.length)) := by
  induction ps generalizing s n with
  | nil =>
    cases h
    rw [List.length_nil, BitVec.add_zero]
    rfl
  | cons p ps ih =>
    obtain ⟨u, hu, hrest⟩ := Done.bind_eq_ok.1 h
    have hactive := pixStep_active p.1 p.2 s
    have hframe := pixStep_lzwFrame p.1 p.2 s
    rw [hu] at hactive hframe
    have hufault : u.fault = false := (LzwFrame.fault hframe).trans hfault
    have hlength : n + 1#32 + BitVec.ofNat 32 ps.length = n + BitVec.ofNat 32 (ps.length + 1) := by
      rw [BitVec.ofNat_add, BitVec.add_assoc, BitVec.add_comm 1#32]
    show runCommands (.lzwpix p.1 :: pixCommands ps) (s.atPc n) = _
    rw [runCommands_cons (exec_lzwpix_ok hopen hu n) hufault, ih (hactive.trans hopen) hufault hrest, hlength,
      List.length_cons]

/-- A frame begun and fed pixels by commands. -/
theorem runCommands_open {ps : List (Byte × Word)} {s u v : State} (hfault : s.fault = false) (hclosed : s.active = false)
    (hdepth : s.DepthLegal) (hu : beginBody s = .ok u) (hv : pixSteps ps u = .ok v) :
    runCommands (.lzwbegin :: pixCommands ps) s = .next (v.atPc (s.pc + 1#32 + BitVec.ofNat 32 ps.length)) := by
  have hframe := beginBody_lzwFrame s
  have hactive := beginBody_active s
  rw [hu] at hframe hactive
  have hufault : u.fault = false := (LzwFrame.fault hframe).trans hfault
  have hexec : exec .lzwbegin s = .next (u.atPc (s.pc + 1#32)) := by
    rw [exec_lzwbegin_legal hdepth hclosed, hu, finish_ok, LzwFrame.pc hframe]
    rfl
  rw [runCommands_cons hexec hufault, runCommands_pixCommands hactive hufault hv]

/-! ### The end of a frame -/

/-- `Close` completes whatever the partial byte. -/
theorem packClose_completes {s : State} (hroom : s.bufCnt.toNat ≤ 254) : ∃ t, packClose s = .ok t := by
  unfold packClose closePartial
  split
  · exact ⟨_, rfl⟩
  · obtain ⟨u, hu, -⟩ := pushByte_spec s.partialByte hroom
    exact ⟨_, by rw [hu, Done.ok_bind, Done.ok_bind]⟩

theorem endBody_completes {s : State} (h : s.CodesFit) (hroot : s.cur ≠ rootCur) : ∃ t, endBody s = .ok t := by
  obtain ⟨u, hu, husame, huemit⟩ := emit_emitted h.widthPos h.widthLe (h.cur_lt hroot).1 h.room
  obtain ⟨v, hv, -, hvemit⟩ := emit_emitted h.widthPos h.widthLe h.stopFits huemit.room
  obtain ⟨w, hw⟩ := packClose_completes hvemit.room
  have huregs : u.lzwD = s.lzwD ∧ u.codeWidth = s.codeWidth := by rw [husame]; exact ⟨rfl, rfl⟩
  obtain ⟨hlzwD, hwidth⟩ := huregs
  exact ⟨_, by rw [endBody, hu, Done.ok_bind, hlzwD, hwidth, hv, Done.ok_bind, hw, Done.ok_bind]⟩

theorem exec_lzwend_ok {s t : State} (hopen : s.active = true) (hcur : s.cur.toNat < 4096) (h : endBody s = .ok t)
    (n : BitVec 32) : exec .lzwend (s.atPc n) = .next (t.atPc (n + 1#32)) := by
  rw [exec_eq_finish, commandBody, openCheck_of_open (s := s.atPc n) hopen, Done.ok_bind,
    emptyCheck_of_code (s := s.atPc n) hcur, Done.ok_bind, endBody_blind.ok_atPc h, finish_ok]
  rfl

/-! ### The first pixel out of range -/

section
variable {s : State} (hfault : s.fault = false) (hclosed : s.active = false) (hdepth : s.DepthLegal)
  (hframe : s.FrameLegal) (hregion : s.RegionLegal) (hroom : s.bufCnt.toNat ≤ 254)
include hfault hclosed hdepth hframe hregion hroom

/-- `LZWENC` at its first pixel out of range, and the sequence just before it. -/
theorem lzwenc_firstOutOfRange {before after : List Nat} {a : Nat} (haddrs : s.regionAddrs = before ++ a :: after)
    (hbefore : ∀ b ∈ before, (s.readIdx b).toNat < 2 ^ s.regs.depth.toNat)
    (ha : 2 ^ s.regs.depth.toNat ≤ (s.readIdx a).toNat) :
    ∃ v : State, exec .lzwenc s = .next ((v.atPc s.pc).takeFault .pixRange (BitVec.ofNat 32 a))
      ∧ runCommands (.lzwbegin :: before.map fun b => .lzwpix (s.readIdx b)) s = .next v
      ∧ v.fault = false ∧ v.active = true ∧ v.lzwD.toNat = s.regs.depth.toNat := by
  obtain ⟨u, v, hu, hv, hvframe, hactive, htracks, -⟩ := openFrame_tracks (ps := before.map s.scanItem) hdepth hroom
    (List.forall_mem_map.2 hbefore)
  have hitems : s.scanItems = before.map s.scanItem ++ s.scanItem a :: after.map s.scanItem := by
    rw [State.scanItems, haddrs, List.map_append, List.map_cons]
  have hrun := runCommands_open hfault hclosed hdepth hu hv
  rw [pixCommands, List.map_map] at hrun
  refine ⟨_, ?_, hrun, hvframe.fault.trans hfault, hactive, htracks.lzwD⟩
  have hscan : pixSteps s.scanItems u = .raised .pixRange (BitVec.ofNat 32 a) v := by
    rw [hitems, pixSteps_append, hv, Done.ok_bind, pixSteps_cons, State.scanItem,
      pixStep_range (by rw [htracks.lzwD]; exact ha), Done.raised_bind]
  rw [exec_eq_finish, commandBody, lzwencBody_legal hclosed hdepth hframe hregion, hu, Done.ok_bind, hscan,
    Done.raised_bind, finish_raised, State.atPc_atPc, ← hvframe.pc, State.atPc_self]

/-- With every pixel in range `LZWENC` and the sequence complete in one state but for `PC`. -/
theorem lzwenc_streamed_of_inRange (hpixels : ∀ v ∈ s.regionPixels, v.toNat < 2 ^ s.regs.depth.toNat) :
    ∃ t : State, exec .lzwenc s = .next (t.atPc (s.pc + 1#32))
      ∧ runCommands (.lzwbegin :: s.regionPixels.map .lzwpix ++ [.lzwend]) s
          = .next (t.atPc (s.pc + BitVec.ofNat 32 (s.regionPixels.length + 2))) := by
  obtain ⟨u, v, hu, hv, hvframe, hactive, htracks, hemit⟩ := openFrame_tracks hdepth hroom (s.scanItems_inRange hpixels)
  have hcur := pixSteps_cur_lt (s.scanItems_ne_nil hregion) hv
  obtain ⟨t, ht⟩ := endBody_completes (htracks.codesFit hemit.room) fun h => absurd hcur (by rw [h]; decide)
  have hend := endBody_lzwFrame v
  rw [ht] at hend
  have htframe : LzwFrame s t := hvframe.trans hend
  refine ⟨t, ?_, ?_⟩
  · rw [exec_eq_finish, commandBody, lzwencBody_legal hclosed hdepth hframe hregion, hu, Done.ok_bind, hv, Done.ok_bind,
      ht, finish_ok, htframe.pc]
    rfl
  · have hrun := runCommands_open hfault hclosed hdepth hu hv
    have hcommands : pixCommands s.scanItems = s.regionPixels.map .lzwpix := by
      rw [← s.map_fst_scanItems, List.map_map]
      rfl
    have hcount : s.pc + 1#32 + BitVec.ofNat 32 s.scanItems.length + 1#32
        = s.pc + BitVec.ofNat 32 (s.regionPixels.length + 2) := by
      rw [← s.map_fst_scanItems, List.length_map, BitVec.add_assoc, BitVec.add_assoc, BitVec.ofNat_add,
        BitVec.add_comm 1#32, BitVec.add_assoc]
      rfl
    rw [hcommands] at hrun
    rw [runCommands_append hrun (hvframe.fault.trans hfault),
      runCommands_cons (exec_lzwend_ok hactive hcur ht _) (htframe.fault.trans hfault), hcount]
    rfl

end

/-- Settles O35: `lzwenc_firstOutOfRange`, with the fault it takes written out. -/
theorem lzwencPixelRangeFault : Obligations.LzwencPixelRangeFault := by
  intro s before a after hclosed hdepth hframe hregion hfault hroom haddrs hbefore ha
  obtain ⟨v, hexec, hrun, hvfault, hactive, -⟩ :=
    lzwenc_firstOutOfRange hfault hclosed hdepth hframe hregion hroom haddrs hbefore ha
  exact ⟨_, v, hexec, hrun, hvfault, rfl, hactive⟩

/-- Settles O36: either every pixel is in range, or both ways fault at the first that is not. -/
theorem lzwencEqualsStreamedSequence : Obligations.LzwencEqualsStreamedSequence := by
  intro s hfault hclosed hdepth hframe hregion hroom
  cases hfind : s.regionAddrs.find? fun a => decide (2 ^ s.regs.depth.toNat ≤ (s.readIdx a).toNat) with
  | none =>
    have hpixels : ∀ v ∈ s.regionPixels, v.toNat < 2 ^ s.regs.depth.toNat := List.forall_mem_map.2 fun a ha => by
      simpa using List.find?_eq_none.1 hfind a ha
    obtain ⟨t, hexec, hrun⟩ := lzwenc_streamed_of_inRange hfault hclosed hdepth hframe hregion hroom hpixels
    exact ⟨_, _, hexec, hrun, rfl, fun _ => ⟨rfl, rfl, rfl⟩⟩
  | some a =>
    obtain ⟨ha, before, after, haddrs, hbefore⟩ := List.find?_eq_some_iff_append.1 hfind
    have ha' : 2 ^ s.regs.depth.toNat ≤ (s.readIdx a).toNat := of_decide_eq_true ha
    obtain ⟨v, hexec, hrun, hvfault, hactive, hlzwD⟩ := lzwenc_firstOutOfRange hfault hclosed hdepth hframe hregion hroom
      haddrs (fun b hb => by simpa using hbefore b hb) ha'
    have hpix := (lzwpixFaults (s.readIdx a) v).2 hactive (by rw [hlzwD]; exact ha')
    have hcommands : .lzwbegin :: s.regionPixels.map .lzwpix ++ [.lzwend]
        = (.lzwbegin :: before.map fun b => .lzwpix (s.readIdx b))
          ++ .lzwpix (s.readIdx a) :: (after.map (fun b => Instr.lzwpix (s.readIdx b)) ++ [.lzwend]) := by
      rw [State.regionPixels, haddrs, List.map_map, List.map_append, List.map_cons, List.cons_append, List.append_assoc]
      rfl
    have hstream := runCommands_append hrun hvfault
      (.lzwpix (s.readIdx a) :: (after.map (fun b => Instr.lzwpix (s.readIdx b)) ++ [.lzwend]))
    rw [← hcommands, runCommands_fault hpix rfl] at hstream
    exact ⟨_, _, hexec, hstream, rfl, fun hnofault => Bool.noConfusion hnofault⟩

end Sys2Proof.Machine
end
